-- ==== Sys2Proof/Word.lean ====
section
/-! DEFINITION. The word types of the block: bytes, and the 32-bit pattern of a real. -/

namespace Sys2Proof

/-- A byte: an unsigned integer in 0..255, bit 7 the most significant (00_scope.md R10). -/
abbrev Byte := BitVec 8

/-- The 32-bit pattern of a `Real32` data field (43_dif_vif_rom.md R226). -/
abbrev Word32 := BitVec 32

end Sys2Proof
end

