-- ==== Sys2Proof/Machine/Memory.lean ====
section
/-! DEFINITION. A byte buffer as a list of (address, byte) cells in one canonical form (20_memory.md R60, R61). An
unlisted address reads 0, the reset value of every buffer element (10_state.md R51). -/

namespace Sys2Proof.Machine

/-- A byte buffer: the cells that differ from the reset contents, addresses rising. -/
abbrev Memory := List Host.Cell

/-- What an element nothing has written reads as: its reset value (10_state.md R30, R32, R42, R51). -/
def Memory.blank : Byte := 0

/-- The element at an address. -/
def Memory.read : Memory → Nat → Byte
  | [], _ => Memory.blank
  | (k, v) :: m, a => if k = a then v else Memory.read m a

/-- Set the element at an address, keeping the canonical form. -/
def Memory.write : Memory → Nat → Byte → Memory
  | [], a, v => if v = Memory.blank then [] else [(a, v)]
  | (k, w) :: m, a, v =>
    if k < a then (k, w) :: Memory.write m a v
    else if k = a then (if v = Memory.blank then m else (a, v) :: m)
    else (if v = Memory.blank then (k, w) :: m else (a, v) :: (k, w) :: m)

/-- The `n` elements from `a` on (`MemRead`, 20_memory.md R61). -/
def Memory.readRange (m : Memory) (a : Nat) : Nat → List Byte
  | 0 => []
  | n + 1 => m.read a :: m.readRange (a + 1) n

/-- Set the elements from `a` on, in order. -/
def Memory.writeRange (m : Memory) (a : Nat) : List Byte → Memory
  | [] => m
  | b :: bs => (m.write a b).writeRange (a + 1) bs

/-- The canonical form: addresses strictly rising, no cell equal to what an unlisted address reads as. -/
abbrev Memory.wf (m : Memory) : Prop :=
  m.Pairwise (fun x y => x.1 < y.1) ∧ ∀ c ∈ m, c.2 ≠ Memory.blank

/-- Every listed address is inside a buffer of this size. -/
abbrev Memory.within (m : Memory) (size : Nat) : Prop := ∀ c ∈ m, c.1 < size

end Sys2Proof.Machine
end

