-- ==== Sys2Proof/Config.lean ====
section
/-! DEFINITION. The open parameters of the block (00_scope.md R9): what an implementation fixes before reset and
never writes (44_control_ops.md R256), as plain data; and the one free value, `tx_sum` (10_state.md R46).
The default contents of the two ROMs are in Machine/Rom.lean. -/

namespace Sys2Proof

/-- The byte counts an integer data field can have (43_dif_vif_rom.md R200): 1, 2, 3, 4, 6, 8. -/
inductive IntWidth where
  | w1 | w2 | w3 | w4 | w6 | w8
deriving DecidableEq, Repr

/-- `Layout`, the closed set of 43_dif_vif_rom.md R200. `bcd d` is BCD of `d` digits, `d` even. -/
inductive Layout where
  | noData
  | int (k : IntWidth)
  | real32
  | bcd (digits : Nat)
  | varLen
  | selection
  | special
deriving DecidableEq, Repr

/-- The quantities a VIF can name (43_dif_vif_rom.md R210). -/
inductive Quantity where
  | energy | volume | mass | onTime | operatingTime | power | volumeFlow | massFlow
  | flowTemperature | returnTemperature | temperatureDifference | externalTemperature
  | pressure | timePoint | hcaUnits | averagingDuration | actualityDuration
  | fabricationNo | enhancedId | busAddress
deriving DecidableEq, Repr

/-- The units an entry can name: those of the table of 43_dif_vif_rom.md R211, and any other by its name. R210 closes the
quantities and not the units (DESIGN CHOICE, log 21). -/
inductive PhysUnit where
  | wattHour | joule | cubicMetre | kilogram
  | second | minute | hour | day
  | watt | joulePerHour
  | cubicMetrePerHour | cubicMetrePerMinute | cubicMetrePerSecond | kilogramPerHour
  | degreeCelsius | kelvin | bar
  | date | dateTime
  | dimensionless | noUnit
  /-- A unit the default table does not name. -/
  | other (name : List Char)
deriving DecidableEq, Repr

/-- The two extension tables an `ExtTable` entry names (43_dif_vif_rom.md R210). -/
inductive ExtTable where
  | fb | fd
deriving DecidableEq, Repr

/-- `VifEntry`, the closed set of 43_dif_vif_rom.md R210. -/
inductive VifEntry where
  | known (quantity : Quantity) (unit : PhysUnit) (scale : Int)
  | reserved
  | extTable (t : ExtTable)
  | plainText
  | anyVif
  | mfrSpecific
deriving DecidableEq, Repr

/-- One entry of `VIFE_ROM`: the whole VIF byte and the whole VIFE list, and what they resolve to
(43_dif_vif_rom.md R213). -/
structure VifeRow where
  vif   : Byte
  vifes : List Byte
  entry : VifEntry
deriving DecidableEq, Repr

/-- The pair `(ff, x7f)` of `NOVALUE` (43_dif_vif_rom.md R220, R221). -/
structure Sentinels where
  ff  : Bool
  x7f : Bool
deriving DecidableEq, Repr

/-- The layouts a row of `NOVALUE` is about: one layout, or `Bcd` of every digit count (log 19). -/
inductive NoValueKey where
  | only (layout : Layout)
  | everyBcd
deriving DecidableEq, Repr

/-- Layouts whose `NOVALUE` pair is given and not the default of 43_dif_vif_rom.md R221. -/
structure NoValueRow where
  key       : NoValueKey
  sentinels : Sentinels
deriving DecidableEq, Repr

/-- The configuration (00_scope.md R9), as plain data.
DESIGN CHOICE (log 3, safe): it travels in `State.cfg`, which no step writes, so that a claim about every state is
a claim about every configuration. `REAL_INTERP` stands beside it in `Parameters`: no operation reads it (log 18). -/
structure Config where
  /-- `DIF_ROM`, address space `DIFROM`, 16 entries (20_memory.md R60). -/
  difRom  : Vector Layout 16
  /-- `VIF_ROM`, address space `VIFROM`, 128 entries (20_memory.md R60). -/
  vifRom  : Vector VifEntry 128
  /-- `VIFE_ROM`, a partial function: the first row that matches, none where none does (R213). -/
  vifeRom : List VifeRow
  /-- `NOVALUE`: the first row that names a layout gives its pair, the default of R221 where none does (log 19). -/
  noValue : List NoValueRow
  /-- `MAX_DIFE`. -/
  maxDife : Nat
  /-- `MAX_VIFE`. -/
  maxVife : Nat
deriving DecidableEq, Repr

/-- What a 32-bit pattern means (43_dif_vif_rom.md R226): a real number, or none. `K` is the field of the numbers, the reals
or any other. `infinity` is IEEE 754's third kind of value, which the spec's "real number or NaN" does not name (DESIGN
CHOICE, log 18). -/
inductive RealVal (K : Type) where
  | number (x : K)
  | infinity (negative : Bool)
  | nan
deriving DecidableEq, Repr

/-- All the open parameters of 00_scope.md R9: the configuration the block reads, and `REAL_INTERP`, a function and so in no
state (log 18). -/
structure Parameters (K : Type) where
  config     : Config
  /-- `REAL_INTERP`. -/
  realInterp : Word32 → RealVal K

/-- The value `tx_sum` holds after a frame is loaded or a byte of it is sent: any value, not observable
(10_state.md R46; 93_implementation_defined.md I12). It has no body, so no proof can see it (log 9). -/
opaque Config.freeTxSum : Nat → Byte

end Sys2Proof
end

