-- ==== Sys2Proof/Syntax.lean ====
section
/-! DEFINITION. The operands of the block's operations and `Instr`, one constructor per row of spec/opcode_table.json
(30_encoding.md R103), in the table's order. -/

namespace Sys2Proof

/-- `rx_state` (10_state.md R22). -/
inductive RxState where
  | hunt | short | long
deriving DecidableEq, Repr

/-- `FrameKind` (00_scope.md R15). -/
inductive FrameKind where
  | ack | short | control | long
deriving DecidableEq, Repr

/-- A `Frame` value (00_scope.md R15). -/
inductive Frame where
  | ack
  | short (c a : Byte)
  | control (c a ci : Byte)
  | long (c a ci : Byte) (payload : List Byte)
deriving DecidableEq, Repr

/-- A transmit request `(kind, C, A, CI, payload)`, the operand of `TX_START` (41_tx_encoder.md R150). -/
structure TxReq where
  kind    : FrameKind
  c       : Byte
  a       : Byte
  ci      : Byte
  payload : List Byte
deriving DecidableEq, Repr

/-- The byte buffers a host can read (20_memory.md R60). -/
inductive Space where
  | rxBody | resPay | txPay
deriving DecidableEq, Repr

/-- What a host read names: a register or status bit of 10_state.md, or `n` bytes of a buffer from `addr`
(44_control_ops.md R254; 20_memory.md R61). -/
inductive Reg where
  | rxState | rxCnt | rxL1 | rxL2 | rxS2 | rxSum | rxCs | rxBusy
  | resCode | resKind | resC | resA | resCI | resPlen | resConsumed | resByte
  | txState | txPos | txKind | txC | txA | txCI | txPlen | txLen | txCode | txBusy | txSum
  | buffer (space : Space) (addr n : Nat)
deriving DecidableEq, Repr

/-- A `Record` item (42_record_scan.md R170): a record occupying `[start, stop)` of its byte sequence. -/
structure Record where
  start   : Nat
  stop    : Nat
  dif     : Byte
  difes   : List Byte
  vif     : Byte
  vifes   : List Byte
  dataOff : Nat
  dataLen : Nat
deriving DecidableEq, Repr

/-- What selects the class of a received byte: `rx_state`, `rx_cnt` and `rx_L1` (40_rx_framer.md R110). -/
structure RxPos where
  st  : RxState
  cnt : Nat
  l1  : Nat
deriving DecidableEq, Repr

/-- Where an encoded object is presented: to the receive path, byte by byte or as a whole frame, or to the decoder
at one of the positions of a record. A byte value belongs to rows of several formats (30_encoding.md R103); the
place it is presented at says which (DESIGN CHOICE, log 5). -/
inductive Port where
  | channel
  | frame
  | dif | dife | vif | vife | lvar
  | difFunction | difData | difSpecial | vifCode
deriving DecidableEq, Repr

/-- The rows of spec/opcode_table.json, in its order. Operands are the row's fields; a field the row fixes or
computes (a delimiter, a length byte, a checksum) is no operand. -/
inductive Instr where
  -- frame formats (30_encoding.md R80)
  | frameAck
  | frameShort (c a : Byte)
  | frameControl (c a ci : Byte)
  | frameLong (c a ci : Byte) (payload : List Byte)
  -- receive byte classes (40_rx_framer.md R111 to R118)
  | rxHuntAck
  | rxHuntStartShort
  | rxHuntStartLong
  | rxHuntOther (b : Byte)
  | rxShortBody (b : Byte)
  | rxShortStop (b : Byte)
  | rxLongBody (b : Byte)
  | rxLongStop (b : Byte)
  -- commands (40_rx_framer.md, 41_tx_encoder.md, 44_control_ops.md)
  | rxByte (b : Byte)
  | txStart (req : TxReq)
  | txStep
  | reset
  | rxFlush
  | hostRead (r : Reg)
  -- decoder functions (42_record_scan.md, 43_dif_vif_rom.md)
  | recHeader (p : List Byte) (i : Nat)
  | recScan (p : List Byte) (off : Nat)
  | difLookup (code : BitVec 4)
  | difFields (dif : Byte)
  | difeAcc (dif : Byte) (difes : List Byte)
  | vifLookup (vif : Byte) (vifes : List Byte)
  | extract (layout : Layout) (d : List Byte)
  | recDecode (p : List Byte) (r : Record)
  -- pseudo-operations (30_encoding.md R102)
  | feed (bs : List Byte)
  | decode (buf : List Byte)
  | encode (req : TxReq)
  | send (req : TxReq)
  -- record byte formats (30_encoding.md R91 to R94, R99)
  | dif (e s : BitVec 1) (f : BitVec 2) (d : BitVec 4)
  | dife (e u : BitVec 1) (t : BitVec 2) (s : BitVec 4)
  | vif (e : BitVec 1) (c : BitVec 7)
  | vife (e : BitVec 1) (c : BitVec 7)
  | lvar (v : Byte)
  -- DIF function codes (43_dif_vif_rom.md R203)
  | difFuncInstantaneous (e s : BitVec 1) (d : BitVec 4)
  | difFuncMaximum (e s : BitVec 1) (d : BitVec 4)
  | difFuncMinimum (e s : BitVec 1) (d : BitVec 4)
  | difFuncError (e s : BitVec 1) (d : BitVec 4)
  -- DIF data-field codes (43_dif_vif_rom.md R201)
  | difData0NoData (e s : BitVec 1) (f : BitVec 2)
  | difData1Int1 (e s : BitVec 1) (f : BitVec 2)
  | difData2Int2 (e s : BitVec 1) (f : BitVec 2)
  | difData3Int3 (e s : BitVec 1) (f : BitVec 2)
  | difData4Int4 (e s : BitVec 1) (f : BitVec 2)
  | difData5Real32 (e s : BitVec 1) (f : BitVec 2)
  | difData6Int6 (e s : BitVec 1) (f : BitVec 2)
  | difData7Int8 (e s : BitVec 1) (f : BitVec 2)
  | difData8Selection (e s : BitVec 1) (f : BitVec 2)
  | difData9Bcd2 (e s : BitVec 1) (f : BitVec 2)
  | difDataABcd4 (e s : BitVec 1) (f : BitVec 2)
  | difDataBBcd6 (e s : BitVec 1) (f : BitVec 2)
  | difDataCBcd8 (e s : BitVec 1) (f : BitVec 2)
  | difDataDVarLen (e s : BitVec 1) (f : BitVec 2)
  | difDataEBcd12 (e s : BitVec 1) (f : BitVec 2)
  | difDataFSpecial (e s : BitVec 1) (f : BitVec 2)
  -- special DIF bytes (42_record_scan.md R176); `tail` is the rest of the payload after the DIF byte
  | difMfrTail (tail : List Byte)
  | difMfrTailMore (tail : List Byte)
  | difFiller
  | difSpecialOther (b : Byte)
  -- VIF codes (43_dif_vif_rom.md R211)
  | vif00Energy (e : BitVec 1) (n : BitVec 3)
  | vif08Energy (e : BitVec 1) (n : BitVec 3)
  | vif10Volume (e : BitVec 1) (n : BitVec 3)
  | vif18Mass (e : BitVec 1) (n : BitVec 3)
  | vif20OnTime (e : BitVec 1) (n : BitVec 2)
  | vif24OperatingTime (e : BitVec 1) (n : BitVec 2)
  | vif28Power (e : BitVec 1) (n : BitVec 3)
  | vif30Power (e : BitVec 1) (n : BitVec 3)
  | vif38VolumeFlow (e : BitVec 1) (n : BitVec 3)
  | vif40VolumeFlow (e : BitVec 1) (n : BitVec 3)
  | vif48VolumeFlow (e : BitVec 1) (n : BitVec 3)
  | vif50MassFlow (e : BitVec 1) (n : BitVec 3)
  | vif58FlowTemperature (e : BitVec 1) (n : BitVec 2)
  | vif5CReturnTemperature (e : BitVec 1) (n : BitVec 2)
  | vif60TemperatureDifference (e : BitVec 1) (n : BitVec 2)
  | vif64ExternalTemperature (e : BitVec 1) (n : BitVec 2)
  | vif68Pressure (e : BitVec 1) (n : BitVec 2)
  | vif6CTimePoint (e : BitVec 1)
  | vif6DTimePoint (e : BitVec 1)
  | vif6EHcaUnits (e : BitVec 1)
  | vif6FReserved (e : BitVec 1)
  | vif70AveragingDuration (e : BitVec 1) (n : BitVec 2)
  | vif74ActualityDuration (e : BitVec 1) (n : BitVec 2)
  | vif78FabricationNo (e : BitVec 1)
  | vif79EnhancedId (e : BitVec 1)
  | vif7ABusAddress (e : BitVec 1)
  | vif7BExtTableFB (e : BitVec 1)
  | vif7CPlainText (e : BitVec 1)
  | vif7DExtTableFD (e : BitVec 1)
  | vif7EAnyVif (e : BitVec 1)
  | vif7FMfrSpecific (e : BitVec 1)
deriving DecidableEq, Repr

end Sys2Proof
end

