-- ==== Sys2Proof/Decode.lean ====
section
/-! DEFINITION. Bits and bytes (00_scope.md R10 to R12), the wire formats (30_encoding.md R80 to R89), the decoder from
bytes to `Instr` and, after it, the encoder. -/

namespace Sys2Proof

/-! ### Bits -/

/-- `b[i]`, bit `i` of byte `b` as 0 or 1 (00_scope.md R10). -/
def bit (b : Byte) (i : Nat) : Nat := (b.toNat >>> i) % 2

/-- `b[hi:lo] = (b >> lo) mod 2^(hi-lo+1)` (00_scope.md R10). -/
def bits (b : Byte) (hi lo : Nat) : Nat := (b.toNat >>> lo) % 2 ^ (hi - lo + 1)

/-- The top bit of a byte, the `ext` bit of a DIF, DIFE, VIF or VIFE (30_encoding.md R91 to R94). -/
def topBit (b : Byte) : Bool := b.getLsbD 7

/-- `DIF[3:0]`, the data-field code (30_encoding.md R91). -/
def dataCode (b : Byte) : BitVec 4 := b.extractLsb' 0 4

/-- `VIF[6:0]`, the value code, key of `VIF_ROM` (30_encoding.md R93). -/
def valueCode (b : Byte) : BitVec 7 := b.extractLsb' 0 7

/-! ### Frames on the wire -/

/-- `ACK_BYTE`, the whole Acknowledge frame (00_scope.md R8). -/
def ackByte : Byte := 0xE5

/-- `START_SHORT` (00_scope.md R8). -/
def startShort : Byte := 0x10

/-- `START_LONG` (00_scope.md R8). -/
def startLong : Byte := 0x68

/-- `STOP_BYTE` (00_scope.md R8). -/
def stopByte : Byte := 0x16

/-- `MAX_PAYLOAD` (00_scope.md R8). -/
abbrev maxPayload : Nat := 252

/-- `L_MIN`, the smallest legal length byte (00_scope.md R8). -/
abbrev lMin : Nat := 3

/-- `sum8(s)`, the sum of the bytes modulo 256 (00_scope.md R12). -/
def sum8 : List Byte → Byte
  | [] => 0
  | b :: bs => b + sum8 bs

/-- `cs(frame)`, the checksum (30_encoding.md R83). An Acknowledge has none; 0 stands there and nothing reads it. -/
def Frame.cs : Frame → Byte
  | .ack => 0
  | .short c a => c + a
  | .control c a ci => c + a + ci
  | .long c a ci p => c + a + ci + sum8 p

/-- The length byte `L = 3 + len(payload)` (30_encoding.md R82); it fits its byte when the payload has at most 252
bytes. -/
def lengthByte (payload : List Byte) : Byte := BitVec.ofNat 8 (3 + payload.length)

/-- The wire image of a frame (30_encoding.md R84), defined for a Long frame of at most 252 payload bytes. -/
def wire : Frame → List Byte
  | .ack => [ackByte]
  | .short c a => [startShort, c, a, (Frame.short c a).cs, stopByte]
  | .control c a ci => [startLong, 3, 3, startLong, c, a, ci, (Frame.control c a ci).cs, stopByte]
  | .long c a ci p =>
    [startLong, lengthByte p, lengthByte p, startLong, c, a, ci] ++ p ++ [(Frame.long c a ci p).cs, stopByte]

/-- A frame the round trip holds for: every `Ack`, `Short`, `Control`, and a `Long` with 1 to 252 payload bytes
(00_scope.md R15). -/
def Frame.valid : Frame → Bool
  | .long _ _ _ p => decide (1 ≤ p.length ∧ p.length ≤ maxPayload)
  | _ => true

/-- The row a frame belongs to. -/
def Frame.toInstr : Frame → Instr
  | .ack => .frameAck
  | .short c a => .frameShort c a
  | .control c a ci => .frameControl c a ci
  | .long c a ci p => .frameLong c a ci p

/-- The failures of `decode(buf)` (40_rx_framer.md R130) and of reading an encoded object where it is presented. -/
inductive DecodeError where
  /-- no byte is present -/
  | noByte
  /-- fewer bytes than the frame declares (R133) -/
  | incompleteFrame
  /-- the leading byte is no start delimiter (R112) -/
  | framingError
  /-- a length byte, the repeated start byte or the stop byte is wrong (R115, R118) -/
  | lengthMismatch
  /-- the checksum is wrong (R115, R118) -/
  | checksumError
  /-- the receive path is in a state no class of R110 covers; no run reaches one (R125) -/
  | noRxClass
  /-- the byte is none of the special DIF bytes (R176) -/
  | notSpecialDif
deriving DecidableEq, Repr

/-- The kinds of failed verdict (60_exceptions.md R270, R271). -/
inductive RxError where
  | framingError | lengthMismatch | checksumError
deriving DecidableEq, Repr

/-- The result of `decode(buf)` (40_rx_framer.md R130); an incomplete frame consumes 0 bytes. -/
inductive DecodeResult where
  | ok (frame : Frame) (consumed : Nat)
  | err (kind : RxError) (consumed : Nat)
  | incomplete
deriving DecidableEq, Repr

/-- The Short branch of the closed form of `decode(buf)` (40_rx_framer.md R131). -/
def decodeShort (buf : List Byte) : DecodeResult :=
  if buf.length < 5 then .incomplete
  else if buf.getD 4 0 ≠ stopByte then .err .lengthMismatch 5
  else if buf.getD 3 0 ≠ buf.getD 1 0 + buf.getD 2 0 then .err .checksumError 5
  else .ok (.short (buf.getD 1 0) (buf.getD 2 0)) 5

/-- The 0x68 branch of the closed form of `decode(buf)` (40_rx_framer.md R131). -/
def decodeLong (buf : List Byte) : DecodeResult :=
  let l := (buf.getD 1 0).toNat
  let n := l + 6
  if buf.length < 2 then .incomplete
  else if buf.length < n then .incomplete
  else if buf.getD 2 0 ≠ buf.getD 1 0 ∨ buf.getD 3 0 ≠ startLong ∨ l < lMin ∨ buf.getD (n - 1) 0 ≠ stopByte then
    .err .lengthMismatch n
  else if buf.getD (n - 2) 0 ≠ sum8 ((buf.drop 4).take l) then .err .checksumError n
  else if l = lMin then .ok (.control (buf.getD 4 0) (buf.getD 5 0) (buf.getD 6 0)) 9
  else .ok (.long (buf.getD 4 0) (buf.getD 5 0) (buf.getD 6 0) ((buf.drop 7).take (l - 3))) n

/-- The closed form of `decode(buf)` (40_rx_framer.md R131). Every `buf[i]` is read only where `i < len(buf)`. -/
def decodeBuf : List Byte → DecodeResult
  | [] => .incomplete
  | b0 :: bs =>
    if b0 = ackByte then .ok .ack 1
    else if b0 = startShort then decodeShort (b0 :: bs)
    else if b0 = startLong then decodeLong (b0 :: bs)
    else .err .framingError 1

/-! ### The decoder -/

/-- The class of a received byte: the row whose `condition` holds (40_rx_framer.md R110). None where no row's does, in
states no run reaches (R125). -/
def rxClass (pos : RxPos) (b : Byte) : Option Instr :=
  match pos.st with
  | .hunt =>
    if b = ackByte then some .rxHuntAck
    else if b = startShort then some .rxHuntStartShort
    else if b = startLong then some .rxHuntStartLong
    else some (.rxHuntOther b)
  | .short =>
    if 1 ≤ pos.cnt ∧ pos.cnt ≤ 3 then some (.rxShortBody b)
    else if pos.cnt = 4 then some (.rxShortStop b)
    else none
  | .long =>
    if pos.cnt = 1 ∨ (2 ≤ pos.cnt ∧ pos.cnt ≤ pos.l1 + 4) then some (.rxLongBody b)
    else if 2 ≤ pos.cnt ∧ pos.cnt = pos.l1 + 5 then some (.rxLongStop b)
    else none

/-- The `dif-function` row of a DIF byte, by `DIF[5:4]` (43_dif_vif_rom.md R203): total. -/
def difFunctionRow (b : Byte) : Instr :=
  let e := b.extractLsb' 7 1
  let s := b.extractLsb' 6 1
  let d := b.extractLsb' 0 4
  if b &&& 0x30#8 = 0x00#8 then .difFuncInstantaneous e s d
  else if b &&& 0x30#8 = 0x10#8 then .difFuncMaximum e s d
  else if b &&& 0x30#8 = 0x20#8 then .difFuncMinimum e s d
  else .difFuncError e s d

/-- The `dif-data` row of a DIF byte, by its data-field code `DIF[3:0]` (43_dif_vif_rom.md R201): total. -/
def difDataRow (b : Byte) : Instr :=
  let e := b.extractLsb' 7 1
  let s := b.extractLsb' 6 1
  let f := b.extractLsb' 4 2
  if b &&& 0x0F#8 = 0x00#8 then .difData0NoData e s f
  else if b &&& 0x0F#8 = 0x01#8 then .difData1Int1 e s f
  else if b &&& 0x0F#8 = 0x02#8 then .difData2Int2 e s f
  else if b &&& 0x0F#8 = 0x03#8 then .difData3Int3 e s f
  else if b &&& 0x0F#8 = 0x04#8 then .difData4Int4 e s f
  else if b &&& 0x0F#8 = 0x05#8 then .difData5Real32 e s f
  else if b &&& 0x0F#8 = 0x06#8 then .difData6Int6 e s f
  else if b &&& 0x0F#8 = 0x07#8 then .difData7Int8 e s f
  else if b &&& 0x0F#8 = 0x08#8 then .difData8Selection e s f
  else if b &&& 0x0F#8 = 0x09#8 then .difData9Bcd2 e s f
  else if b &&& 0x0F#8 = 0x0A#8 then .difDataABcd4 e s f
  else if b &&& 0x0F#8 = 0x0B#8 then .difDataBBcd6 e s f
  else if b &&& 0x0F#8 = 0x0C#8 then .difDataCBcd8 e s f
  else if b &&& 0x0F#8 = 0x0D#8 then .difDataDVarLen e s f
  else if b &&& 0x0F#8 = 0x0E#8 then .difDataEBcd12 e s f
  else .difDataFSpecial e s f

/-- The `vif-code` row of a VIF byte, by `VIF[6:0]` (43_dif_vif_rom.md R211), each row's mask and match as the opcode
table gives them: total, since the 31 rows match each of the 128 codes exactly once. -/
def vifCodeRow (b : Byte) : Instr :=
  let e := b.extractLsb' 7 1
  let n3 := b.extractLsb' 0 3
  let n2 := b.extractLsb' 0 2
  if b &&& 0x78#8 = 0x00#8 then .vif00Energy e n3
  else if b &&& 0x78#8 = 0x08#8 then .vif08Energy e n3
  else if b &&& 0x78#8 = 0x10#8 then .vif10Volume e n3
  else if b &&& 0x78#8 = 0x18#8 then .vif18Mass e n3
  else if b &&& 0x7C#8 = 0x20#8 then .vif20OnTime e n2
  else if b &&& 0x7C#8 = 0x24#8 then .vif24OperatingTime e n2
  else if b &&& 0x78#8 = 0x28#8 then .vif28Power e n3
  else if b &&& 0x78#8 = 0x30#8 then .vif30Power e n3
  else if b &&& 0x78#8 = 0x38#8 then .vif38VolumeFlow e n3
  else if b &&& 0x78#8 = 0x40#8 then .vif40VolumeFlow e n3
  else if b &&& 0x78#8 = 0x48#8 then .vif48VolumeFlow e n3
  else if b &&& 0x78#8 = 0x50#8 then .vif50MassFlow e n3
  else if b &&& 0x7C#8 = 0x58#8 then .vif58FlowTemperature e n2
  else if b &&& 0x7C#8 = 0x5C#8 then .vif5CReturnTemperature e n2
  else if b &&& 0x7C#8 = 0x60#8 then .vif60TemperatureDifference e n2
  else if b &&& 0x7C#8 = 0x64#8 then .vif64ExternalTemperature e n2
  else if b &&& 0x7C#8 = 0x68#8 then .vif68Pressure e n2
  else if b &&& 0x7F#8 = 0x6C#8 then .vif6CTimePoint e
  else if b &&& 0x7F#8 = 0x6D#8 then .vif6DTimePoint e
  else if b &&& 0x7F#8 = 0x6E#8 then .vif6EHcaUnits e
  else if b &&& 0x7F#8 = 0x6F#8 then .vif6FReserved e
  else if b &&& 0x7C#8 = 0x70#8 then .vif70AveragingDuration e n2
  else if b &&& 0x7C#8 = 0x74#8 then .vif74ActualityDuration e n2
  else if b &&& 0x7F#8 = 0x78#8 then .vif78FabricationNo e
  else if b &&& 0x7F#8 = 0x79#8 then .vif79EnhancedId e
  else if b &&& 0x7F#8 = 0x7A#8 then .vif7ABusAddress e
  else if b &&& 0x7F#8 = 0x7B#8 then .vif7BExtTableFB e
  else if b &&& 0x7F#8 = 0x7C#8 then .vif7CPlainText e
  else if b &&& 0x7F#8 = 0x7D#8 then .vif7DExtTableFD e
  else if b &&& 0x7F#8 = 0x7E#8 then .vif7EAnyVif e
  else .vif7FMfrSpecific e

/-- A special DIF byte (30_encoding.md R97; 42_record_scan.md R176). 0x0F and 0x1F take the rest of the payload with
them; every other byte whose data-field code is not 0xF is refused by name. -/
def difSpecialRow (b : Byte) (rest : List Byte) : Except DecodeError (Instr × List Byte) :=
  if b = 0x0F#8 then .ok (.difMfrTail rest, [])
  else if b = 0x1F#8 then .ok (.difMfrTailMore rest, [])
  else if b = 0x2F#8 then .ok (.difFiller, rest)
  else if b &&& 0x0F#8 = 0x0F#8 then .ok (.difSpecialOther b, rest)
  else .error .notSpecialDif

/-- A whole frame at the head of the bytes, and what is left of them. -/
def decodeFrame (bytes : List Byte) : Except DecodeError (Instr × List Byte) :=
  match decodeBuf bytes with
  | .ok f n => .ok (f.toInstr, bytes.drop n)
  | .err .framingError _ => .error .framingError
  | .err .lengthMismatch _ => .error .lengthMismatch
  | .err .checksumError _ => .error .checksumError
  | .incomplete => .error .incompleteFrame

/-- The decoder: from the bytes presented at a port to an instruction and the bytes left. Total on any bytes; what it
does not read as an instruction it rejects by name. `pos` is consulted at the channel only (40_rx_framer.md R110). -/
def decode (pos : RxPos) (port : Port) (bytes : List Byte) : Except DecodeError (Instr × List Byte) :=
  match port, bytes with
  | .frame, bytes => decodeFrame bytes
  | _, [] => .error .noByte
  | .channel, b :: rest =>
    match rxClass pos b with
    | some i => .ok (i, rest)
    | none => .error .noRxClass
  | .dif, b :: rest =>
    .ok (.dif (b.extractLsb' 7 1) (b.extractLsb' 6 1) (b.extractLsb' 4 2) (b.extractLsb' 0 4), rest)
  | .dife, b :: rest =>
    .ok (.dife (b.extractLsb' 7 1) (b.extractLsb' 6 1) (b.extractLsb' 4 2) (b.extractLsb' 0 4), rest)
  | .vif, b :: rest => .ok (.vif (b.extractLsb' 7 1) (b.extractLsb' 0 7), rest)
  | .vife, b :: rest => .ok (.vife (b.extractLsb' 7 1) (b.extractLsb' 0 7), rest)
  | .lvar, b :: rest => .ok (.lvar b, rest)
  | .difFunction, b :: rest => .ok (difFunctionRow b, rest)
  | .difData, b :: rest => .ok (difDataRow b, rest)
  | .difSpecial, b :: rest => difSpecialRow b rest
  | .vifCode, b :: rest => .ok (vifCodeRow b, rest)

/-! ### The encoder -/

/-- The bytes of an instruction and the port they are presented at, from the patterns of spec/opcode_table.json
(30_encoding.md R103). None for a row with no bit encoding (`"encoding": null` and no byte of its own). -/
def encode : Instr → Option (Port × List Byte)
  | .frameAck => some (.frame, wire .ack)
  | .frameShort c a => some (.frame, wire (.short c a))
  | .frameControl c a ci => some (.frame, wire (.control c a ci))
  | .frameLong c a ci p => some (.frame, wire (.long c a ci p))
  | .rxHuntAck => some (.channel, [ackByte])
  | .rxHuntStartShort => some (.channel, [startShort])
  | .rxHuntStartLong => some (.channel, [startLong])
  | .rxHuntOther b => some (.channel, [b])
  | .rxShortBody b => some (.channel, [b])
  | .rxShortStop b => some (.channel, [b])
  | .rxLongBody b => some (.channel, [b])
  | .rxLongStop b => some (.channel, [b])
  | .rxByte _ => none
  | .txStart _ => none
  | .txStep => none
  | .reset => none
  | .rxFlush => none
  | .hostRead _ => none
  | .recHeader _ _ => none
  | .recScan _ _ => none
  | .difLookup _ => none
  | .difFields _ => none
  | .difeAcc _ _ => none
  | .vifLookup _ _ => none
  | .extract _ _ => none
  | .recDecode _ _ => none
  | .feed _ => none
  | .decode _ => none
  | .encode _ => none
  | .send _ => none
  | .dif e s f d => some (.dif, [(e ++ s ++ f ++ d : BitVec 8)])
  | .dife e u t s => some (.dife, [(e ++ u ++ t ++ s : BitVec 8)])
  | .vif e c => some (.vif, [(e ++ c : BitVec 8)])
  | .vife e c => some (.vife, [(e ++ c : BitVec 8)])
  | .lvar v => some (.lvar, [v])
  | .difFuncInstantaneous e s d => some (.difFunction, [(e ++ s ++ 0#2 ++ d : BitVec 8)])
  | .difFuncMaximum e s d => some (.difFunction, [(e ++ s ++ 1#2 ++ d : BitVec 8)])
  | .difFuncMinimum e s d => some (.difFunction, [(e ++ s ++ 2#2 ++ d : BitVec 8)])
  | .difFuncError e s d => some (.difFunction, [(e ++ s ++ 3#2 ++ d : BitVec 8)])
  | .difData0NoData e s f => some (.difData, [(e ++ s ++ f ++ 0x0#4 : BitVec 8)])
  | .difData1Int1 e s f => some (.difData, [(e ++ s ++ f ++ 0x1#4 : BitVec 8)])
  | .difData2Int2 e s f => some (.difData, [(e ++ s ++ f ++ 0x2#4 : BitVec 8)])
  | .difData3Int3 e s f => some (.difData, [(e ++ s ++ f ++ 0x3#4 : BitVec 8)])
  | .difData4Int4 e s f => some (.difData, [(e ++ s ++ f ++ 0x4#4 : BitVec 8)])
  | .difData5Real32 e s f => some (.difData, [(e ++ s ++ f ++ 0x5#4 : BitVec 8)])
  | .difData6Int6 e s f => some (.difData, [(e ++ s ++ f ++ 0x6#4 : BitVec 8)])
  | .difData7Int8 e s f => some (.difData, [(e ++ s ++ f ++ 0x7#4 : BitVec 8)])
  | .difData8Selection e s f => some (.difData, [(e ++ s ++ f ++ 0x8#4 : BitVec 8)])
  | .difData9Bcd2 e s f => some (.difData, [(e ++ s ++ f ++ 0x9#4 : BitVec 8)])
  | .difDataABcd4 e s f => some (.difData, [(e ++ s ++ f ++ 0xA#4 : BitVec 8)])
  | .difDataBBcd6 e s f => some (.difData, [(e ++ s ++ f ++ 0xB#4 : BitVec 8)])
  | .difDataCBcd8 e s f => some (.difData, [(e ++ s ++ f ++ 0xC#4 : BitVec 8)])
  | .difDataDVarLen e s f => some (.difData, [(e ++ s ++ f ++ 0xD#4 : BitVec 8)])
  | .difDataEBcd12 e s f => some (.difData, [(e ++ s ++ f ++ 0xE#4 : BitVec 8)])
  | .difDataFSpecial e s f => some (.difData, [(e ++ s ++ f ++ 0xF#4 : BitVec 8)])
  | .difMfrTail tail => some (.difSpecial, 0x0F#8 :: tail)
  | .difMfrTailMore tail => some (.difSpecial, 0x1F#8 :: tail)
  | .difFiller => some (.difSpecial, [0x2F#8])
  | .difSpecialOther b => some (.difSpecial, [b])
  | .vif00Energy e n => some (.vifCode, [(e ++ 0x0#4 ++ n : BitVec 8)])
  | .vif08Energy e n => some (.vifCode, [(e ++ 0x1#4 ++ n : BitVec 8)])
  | .vif10Volume e n => some (.vifCode, [(e ++ 0x2#4 ++ n : BitVec 8)])
  | .vif18Mass e n => some (.vifCode, [(e ++ 0x3#4 ++ n : BitVec 8)])
  | .vif20OnTime e n => some (.vifCode, [(e ++ 0x8#5 ++ n : BitVec 8)])
  | .vif24OperatingTime e n => some (.vifCode, [(e ++ 0x9#5 ++ n : BitVec 8)])
  | .vif28Power e n => some (.vifCode, [(e ++ 0x5#4 ++ n : BitVec 8)])
  | .vif30Power e n => some (.vifCode, [(e ++ 0x6#4 ++ n : BitVec 8)])
  | .vif38VolumeFlow e n => some (.vifCode, [(e ++ 0x7#4 ++ n : BitVec 8)])
  | .vif40VolumeFlow e n => some (.vifCode, [(e ++ 0x8#4 ++ n : BitVec 8)])
  | .vif48VolumeFlow e n => some (.vifCode, [(e ++ 0x9#4 ++ n : BitVec 8)])
  | .vif50MassFlow e n => some (.vifCode, [(e ++ 0xa#4 ++ n : BitVec 8)])
  | .vif58FlowTemperature e n => some (.vifCode, [(e ++ 0x16#5 ++ n : BitVec 8)])
  | .vif5CReturnTemperature e n => some (.vifCode, [(e ++ 0x17#5 ++ n : BitVec 8)])
  | .vif60TemperatureDifference e n => some (.vifCode, [(e ++ 0x18#5 ++ n : BitVec 8)])
  | .vif64ExternalTemperature e n => some (.vifCode, [(e ++ 0x19#5 ++ n : BitVec 8)])
  | .vif68Pressure e n => some (.vifCode, [(e ++ 0x1a#5 ++ n : BitVec 8)])
  | .vif6CTimePoint e => some (.vifCode, [(e ++ 0x6c#7 : BitVec 8)])
  | .vif6DTimePoint e => some (.vifCode, [(e ++ 0x6d#7 : BitVec 8)])
  | .vif6EHcaUnits e => some (.vifCode, [(e ++ 0x6e#7 : BitVec 8)])
  | .vif6FReserved e => some (.vifCode, [(e ++ 0x6f#7 : BitVec 8)])
  | .vif70AveragingDuration e n => some (.vifCode, [(e ++ 0x1c#5 ++ n : BitVec 8)])
  | .vif74ActualityDuration e n => some (.vifCode, [(e ++ 0x1d#5 ++ n : BitVec 8)])
  | .vif78FabricationNo e => some (.vifCode, [(e ++ 0x78#7 : BitVec 8)])
  | .vif79EnhancedId e => some (.vifCode, [(e ++ 0x79#7 : BitVec 8)])
  | .vif7ABusAddress e => some (.vifCode, [(e ++ 0x7a#7 : BitVec 8)])
  | .vif7BExtTableFB e => some (.vifCode, [(e ++ 0x7b#7 : BitVec 8)])
  | .vif7CPlainText e => some (.vifCode, [(e ++ 0x7c#7 : BitVec 8)])
  | .vif7DExtTableFD e => some (.vifCode, [(e ++ 0x7d#7 : BitVec 8)])
  | .vif7EAnyVif e => some (.vifCode, [(e ++ 0x7e#7 : BitVec 8)])
  | .vif7FMfrSpecific e => some (.vifCode, [(e ++ 0x7f#7 : BitVec 8)])

/-- The `condition` column of the opcode table: when the row of a receive byte class applies (40_rx_framer.md R110).
Every other row applies always. -/
def Instr.applies (i : Instr) (pos : RxPos) : Bool :=
  match i with
  | .rxHuntAck | .rxHuntStartShort | .rxHuntStartLong | .rxHuntOther _ => decide (pos.st = .hunt)
  | .rxShortBody _ => decide (pos.st = .short ∧ 1 ≤ pos.cnt ∧ pos.cnt ≤ 3)
  | .rxShortStop _ => decide (pos.st = .short ∧ pos.cnt = 4)
  | .rxLongBody _ => decide (pos.st = .long ∧ (pos.cnt = 1 ∨ (2 ≤ pos.cnt ∧ pos.cnt ≤ pos.l1 + 4)))
  | .rxLongStop _ => decide (pos.st = .long ∧ 2 ≤ pos.cnt ∧ pos.cnt = pos.l1 + 5)
  | _ => true

/-! ### The opcode table's numbering of bits -/

/-- The bytes of a word numbered as spec/opcode_table.json numbers it: byte `k` is bits `8k+7 .. 8k`, and byte 0 is the
first on the wire. -/
def tableBytes (nbits w : Nat) : List Byte :=
  (List.range ((nbits + 7) / 8)).map fun k => BitVec.ofNat 8 (w >>> (8 * k))

/-- Where a word that comes with no place is presented (DESIGN CHOICE, log 5): a complete frame as a frame; a single
start byte to the receive path; 0x0F, 0x1F, 0x2F as a special DIF; a byte below 0x10 as a DIF data-field code; any
other byte below 0x80 as a VIF code; the rest to the receive path. -/
def tablePort (bytes : List Byte) : Port :=
  match decodeBuf bytes with
  | .ok _ _ => .frame
  | _ =>
    match bytes with
    | [] => .channel
    | b :: _ =>
      if b = startShort ∨ b = startLong then .channel
      else if b = 0x0F#8 ∨ b = 0x1F#8 ∨ b = 0x2F#8 then .difSpecial
      else if b.toNat < 0x10 then .difData
      else if b.toNat < 0x80 then .vifCode
      else .channel

/-- The receive position after reset: hunting (10_state.md R51). -/
def RxPos.hunting : RxPos := { st := .hunt, cnt := 0, l1 := 0 }

/-- The instruction the decoder reads from a word of the opcode table, presented where `tablePort` says, with the
receive path hunting. -/
def decodeTableWord (nbits w : Nat) : Option Instr :=
  match decode RxPos.hunting (tablePort (tableBytes nbits w)) (tableBytes nbits w) with
  | .ok (i, _) => some i
  | .error _ => none

end Sys2Proof
end

