-- ==== Sys2Proof/Machine/Operands.lean ====
section
/-! DEFINITION. Operand forms: little-endian numbers (00_scope.md R12), the fields of a DIF and DIFE byte
(30_encoding.md R91, R92, R95), the chain form of a header, the length of a layout (30_encoding.md R96) and the sizes
of the buffers (20_memory.md R60). -/

namespace Sys2Proof.Machine

/-! ### Little-endian numbers -/

/-- `le_uint(s)`, least significant byte first (00_scope.md R12). -/
def leUint : List Byte → Nat
  | [] => 0
  | b :: bs => b.toNat + 256 * leUint bs

/-- `sext_N(v)` for an unsigned `N`-bit pattern `v` (00_scope.md R12). -/
def sext (n v : Nat) : Int := if v < 2 ^ (n - 1) then (v : Int) else (v : Int) - (2 : Int) ^ n

/-- `le_sint(s) = sext_{8*len(s)}(le_uint(s))` (00_scope.md R12). -/
def leSint (bs : List Byte) : Int := sext (8 * bs.length) (leUint bs)

/-! ### The DIF byte and the DIFE chain -/

/-- The function codes of a DIF, in the order of their numbers 0 to 3 (30_encoding.md R91). -/
inductive Func where
  | instantaneous | maximum | minimum | error
deriving DecidableEq, Repr

/-- The function a `func` field names (30_encoding.md R91). -/
def Func.ofCode (f : BitVec 2) : Func :=
  if f = 0 then .instantaneous else if f = 1 then .maximum else if f = 2 then .minimum else .error

/-- The fields of a DIF byte, the result of `DIF_FIELDS` (43_dif_vif_rom.md R203). -/
structure DifFields where
  ext  : BitVec 1
  st0  : BitVec 1
  func : Func
  data : BitVec 4
deriving DecidableEq, Repr

/-- The fields of a DIFE byte (30_encoding.md R92). -/
structure DifeFields where
  ext  : BitVec 1
  unit : BitVec 1
  tar  : BitVec 2
  stor : BitVec 4
deriving DecidableEq, Repr

/-- The fields of a VIF or VIFE byte (30_encoding.md R93, R94). -/
structure VifFields where
  ext  : BitVec 1
  code : BitVec 7
deriving DecidableEq, Repr

/-- The fields of the DIF byte with bits `e s f d` (30_encoding.md R91). -/
def difFieldsOf (e s : BitVec 1) (f : BitVec 2) (d : BitVec 4) : DifFields :=
  { ext := e, st0 := s, func := Func.ofCode f, data := d }

/-- `DIF_FIELDS(dif)` (43_dif_vif_rom.md R203). -/
def difFieldsOfByte (dif : Byte) : DifFields :=
  difFieldsOf (dif.extractLsb' 7 1) (dif.extractLsb' 6 1) (dif.extractLsb' 4 2) (dif.extractLsb' 0 4)

/-- What `DIFE_ACC` accumulates (43_dif_vif_rom.md R204): unsigned integers, not truncated. -/
structure Acc where
  storage : Nat
  tariff  : Nat
  subunit : Nat
deriving DecidableEq, Repr

/-- The loop of `DIFE_ACC` from DIFE number `k` on (43_dif_vif_rom.md R204). -/
def difeAccFrom (k : Nat) (acc : Acc) : List Byte → Acc
  | [] => acc
  | b :: bs =>
    difeAccFrom (k + 1)
      { storage := acc.storage + bits b 3 0 <<< (1 + 4 * k)
        tariff  := acc.tariff + bits b 5 4 <<< (2 * k)
        subunit := acc.subunit + bit b 6 <<< k }
      bs

/-- `DIFE_ACC(dif, difes)` (43_dif_vif_rom.md R204; 30_encoding.md R95). -/
def difeAcc (dif : Byte) (difes : List Byte) : Acc :=
  difeAccFrom 0 { storage := bit dif 6, tariff := 0, subunit := 0 } difes

/-- A first byte and its chain have the form of 42_record_scan.md R180 (d): a top bit of 1 in every byte but the last,
0 in the last. -/
def chainForm : Byte → List Byte → Bool
  | b, [] => !topBit b
  | b, c :: cs => topBit b && chainForm c cs

/-! ### Layouts -/

/-- The bytes of an integer width (43_dif_vif_rom.md R200). -/
def intBytes : IntWidth → Nat
  | .w1 => 1
  | .w2 => 2
  | .w3 => 3
  | .w4 => 4
  | .w6 => 6
  | .w8 => 8

/-- The largest LVAR that is a text length (30_encoding.md R99). -/
abbrev maxLvar : Nat := 0xBF

/-- The number of data bytes of a layout (30_encoding.md R96). -/
inductive DataBytes where
  /-- this many -/
  | fixed (n : Nat)
  /-- `1 + LVAR`, where LVAR is the first of them -/
  | onePlusLvar
  /-- not a record with data (R97) -/
  | special
deriving DecidableEq, Repr

/-- The number of data bytes of a layout (30_encoding.md R96). -/
def dataBytesOf : Layout → DataBytes
  | .noData => .fixed 0
  | .int k => .fixed (intBytes k)
  | .real32 => .fixed 4
  | .bcd d => .fixed (d / 2)
  | .varLen => .onePlusLvar
  | .selection => .fixed 0
  | .special => .special

/-- A layout of the closed set of 43_dif_vif_rom.md R200: BCD digits come in pairs. -/
def layoutOk : Layout → Bool
  | .bcd d => decide (d % 2 = 0)
  | _ => true

/-- `d` is a data field of the layout: its length is the one of 42_record_scan.md R175. -/
def dataFits (layout : Layout) (d : List Byte) : Bool :=
  match dataBytesOf layout with
  | .fixed n => decide (d.length = n)
  | .onePlusLvar =>
    match d with
    | [] => false
    | lvar :: text => decide (lvar.toNat ≤ maxLvar ∧ text.length = lvar.toNat)
  | .special => false

/-! ### Buffers -/

/-- The size of a byte buffer (20_memory.md R60). -/
def spaceSize : Space → Nat
  | .rxBody => 255
  | .resPay => 252
  | .txPay => 252

/-- The bound of `RECIN`, the largest payload (20_memory.md R60). -/
abbrev recinSize : Nat := 252

end Sys2Proof.Machine
end

