-- ==== Sys2Proof/Machine/Results.lean ====
section
/-! DEFINITION. What the block hands to the host: events (60_exceptions.md R270), the codes of R271, and the results of
the decoder functions (42_record_scan.md R170; 43_dif_vif_rom.md R212, R220, R230). -/

namespace Sys2Proof.Machine

/-! ### Codes and events -/

/-- The codes of 60_exceptions.md R271, as a closed set; `Code.num` gives the register encoding. -/
inductive Code where
  | none | frameOk | framingError | incompleteFrame | lengthMismatch | checksumError
  | invalidFrame | malformedRecord | refused | txBusy
deriving DecidableEq, Repr

/-- Why a `TX_START` is not accepted (41_tx_encoder.md R155). -/
inductive TxError where
  | invalidFrame | txBusy
deriving DecidableEq, Repr

/-- The events of a step (60_exceptions.md R270). -/
inductive Event where
  | frameOk (frame : Frame) (consumed : Nat)
  | error (kind : RxError) (consumed : Nat) (byte : Byte)
  | txByte (b : Byte)
  | txDone
  | txRejected (kind : TxError)
deriving DecidableEq, Repr

/-! ### Scan items -/

/-- Why a record is `Refused` (42_record_scan.md R170). It is a result item, no stop of the machine. -/
inductive RefusedReason where
  | specialDif | plainTextVif | lvarReserved | chainTooLong | badOffset
deriving DecidableEq, Repr

/-- A scan item (42_record_scan.md R170). -/
inductive Item where
  | record (r : Record)
  | mfrTail (start stop : Nat) (more : Bool)
  | malformed (start : Nat)
  | refused (start : Nat) (reason : RefusedReason)
deriving DecidableEq, Repr

/-- The result of `REC_HEADER`: one scan item, or a filler, which produces none (42_record_scan.md R172). -/
inductive HeaderResult where
  | filler
  | item (i : Item)
deriving DecidableEq, Repr

/-! ### Readings -/

/-- Why a value code did not resolve (43_dif_vif_rom.md R212). -/
inductive UnknownReason where
  | reservedVif | unresolvedVife | extensionUnresolved | anyVif | manufacturerSpecific
deriving DecidableEq, Repr

/-- The result of `VIF_LOOKUP` (43_dif_vif_rom.md R212). -/
inductive VifResult where
  | resolved (quantity : Quantity) (unit : PhysUnit) (scale : Int)
  | unknown (reason : UnknownReason)
  | refusedPlainText
deriving DecidableEq, Repr

/-- `Value` (43_dif_vif_rom.md R220). -/
inductive Value where
  | num (raw : Int)
  | real (pattern : Word32)
  | text (bytes : List Byte)
  | noValue
  | empty
  | badBcd
deriving DecidableEq, Repr

/-- A `Reading` (43_dif_vif_rom.md R230). -/
structure Reading where
  tag      : VifResult
  value    : Value
  storage  : Nat
  tariff   : Nat
  subunit  : Nat
  function : Func
  vif      : Byte
  vifes    : List Byte
  raw      : List Byte
deriving DecidableEq, Repr

/-! ### Answers -/

/-- The result of the pseudo-operation `encode` (41_tx_encoder.md R150, R158): the bytes collected, or why the request
was not accepted. -/
inductive EncodeResult where
  | ok (bytes : List Byte)
  | err (kind : TxError)
deriving DecidableEq, Repr

/-- What an LVAR byte says (30_encoding.md R99): the number of text bytes that follow, or a refusal of the record. -/
inductive LvarResult where
  | text (count : Nat)
  | reserved
deriving DecidableEq, Repr

/-- A value handed back to the host by a host read, a decoder function, a pseudo-operation, or the reading of one
encoded object (DESIGN CHOICE, log 4). -/
inductive Answer where
  | reg (value : Nat)
  | bytes (bs : List Byte)
  | header (r : HeaderResult)
  | items (is : List Item)
  | layout (l : Layout)
  | difFields (f : DifFields)
  | difeFields (f : DifeFields)
  | vifFields (f : VifFields)
  | lvar (r : LvarResult)
  | func (f : Func)
  | dataField (l : Layout) (len : DataBytes)
  | acc (a : Acc)
  | entry (e : VifEntry)
  | vif (r : VifResult)
  | value (v : Value)
  | reading (r : Reading)
  | decoded (r : DecodeResult)
  | encoded (r : EncodeResult)
deriving DecidableEq, Repr

end Sys2Proof.Machine
end

