-- ==== Sys2Proof/Machine/Rom.lean ====
section
/-! DEFINITION. The default contents of the ROMs (43_dif_vif_rom.md R201, R211; PRESUMED: the spec marks both tables as
general knowledge, log 17), the default `NOVALUE` (R221), and the lookups. -/

namespace Sys2Proof.Machine

/-! ### DIF ROM -/

/-- The default `DIF_ROM` (43_dif_vif_rom.md R201). -/
def defaultDifRom : Vector Layout 16 :=
  ⟨#[.noData, .int .w1, .int .w2, .int .w3, .int .w4, .real32, .int .w6, .int .w8,
     .selection, .bcd 2, .bcd 4, .bcd 6, .bcd 8, .varLen, .bcd 12, .special], rfl⟩

/-- `DIF_LOOKUP(code)` (43_dif_vif_rom.md R202). -/
def difLookup (cfg : Config) (code : BitVec 4) : Layout := cfg.difRom.get ⟨code.toNat, code.isLt⟩

/-! ### VIF ROM -/

/-- `count` entries of one quantity and unit, scales rising from `first`. -/
def scaledRow (q : Quantity) (u : PhysUnit) (first : Int) : Nat → List VifEntry
  | 0 => []
  | count + 1 => .known q u first :: scaledRow q u (first + 1) count

/-- The four entries of a duration: seconds, minutes, hours, days. -/
def durationRow (q : Quantity) : List VifEntry :=
  [.known q .second 0, .known q .minute 0, .known q .hour 0, .known q .day 0]

/-- Codes 0x00 to 0x3F of the default `VIF_ROM` (43_dif_vif_rom.md R211). -/
def defaultVifLow : List VifEntry :=
  scaledRow .energy .wattHour (-3) 8 ++ scaledRow .energy .joule 0 8
  ++ scaledRow .volume .cubicMetre (-6) 8 ++ scaledRow .mass .kilogram (-3) 8
  ++ durationRow .onTime ++ durationRow .operatingTime
  ++ scaledRow .power .watt (-3) 8 ++ scaledRow .power .joulePerHour 0 8
  ++ scaledRow .volumeFlow .cubicMetrePerHour (-6) 8

/-- Codes 0x40 to 0x7F of the default `VIF_ROM` (43_dif_vif_rom.md R211). -/
def defaultVifHigh : List VifEntry :=
  scaledRow .volumeFlow .cubicMetrePerMinute (-7) 8 ++ scaledRow .volumeFlow .cubicMetrePerSecond (-9) 8
  ++ scaledRow .massFlow .kilogramPerHour (-3) 8
  ++ scaledRow .flowTemperature .degreeCelsius (-3) 4 ++ scaledRow .returnTemperature .degreeCelsius (-3) 4
  ++ scaledRow .temperatureDifference .kelvin (-3) 4 ++ scaledRow .externalTemperature .degreeCelsius (-3) 4
  ++ scaledRow .pressure .bar (-3) 4
  ++ [.known .timePoint .date 0, .known .timePoint .dateTime 0, .known .hcaUnits .dimensionless 0, .reserved]
  ++ durationRow .averagingDuration ++ durationRow .actualityDuration
  ++ [.known .fabricationNo .noUnit 0, .known .enhancedId .noUnit 0, .known .busAddress .noUnit 0,
      .extTable .fb, .plainText, .extTable .fd, .anyVif, .mfrSpecific]

/-- The default `VIF_ROM`, 128 entries (43_dif_vif_rom.md R211). -/
def defaultVifRom : Vector VifEntry 128 := ⟨(defaultVifLow ++ defaultVifHigh).toArray, rfl⟩

/-- The entry of `VIF_ROM` a code finds (43_dif_vif_rom.md R212, `MemRead(VIFROM, vif[6:0], 1)`). -/
def vifEntry (cfg : Config) (code : BitVec 7) : VifEntry := cfg.vifRom.get ⟨code.toNat, code.isLt⟩

/-- `VIFE_ROM(vif, vifes)`, a partial function (43_dif_vif_rom.md R213). -/
def vifeEntry (cfg : Config) (vif : Byte) (vifes : List Byte) : Option VifEntry :=
  (cfg.vifeRom.find? fun r => r.vif = vif ∧ r.vifes = vifes).map (·.entry)

/-! ### NOVALUE -/

/-- The default `NOVALUE` (43_dif_vif_rom.md R221). -/
def defaultSentinels : Layout → Sentinels
  | .int _ => { ff := true, x7f := true }
  | .bcd _ => { ff := true, x7f := true }
  | .real32 => { ff := true, x7f := true }
  | .noData => { ff := false, x7f := false }
  | .selection => { ff := false, x7f := false }
  | .varLen => { ff := false, x7f := false }
  | .special => { ff := false, x7f := false }

/-- A row of `NOVALUE` is about this layout. -/
def namesLayout : NoValueKey → Layout → Bool
  | .only l, layout => decide (l = layout)
  | .everyBcd, .bcd _ => true
  | .everyBcd, _ => false

/-- `NOVALUE(layout)`: the configured pair where there is one, the default of 43_dif_vif_rom.md R221 elsewhere. -/
def sentinelsOf (cfg : Config) (layout : Layout) : Sentinels :=
  match cfg.noValue.find? fun r => namesLayout r.key layout with
  | some r => r.sentinels
  | none => defaultSentinels layout

/-! ### The default configuration -/

/-- The default of every open parameter (00_scope.md R9). -/
def defaultConfig : Config :=
  { difRom := defaultDifRom, vifRom := defaultVifRom, vifeRom := [], noValue := [], maxDife := 10, maxVife := 10 }

end Sys2Proof.Machine
end

