-- ==== Sys2Proof/Machine/State.lean ====
section
/-! DEFINITION. The state of one block instance (10_state.md R20) as plain data, what stops the model, and the state after
reset (R51). -/

namespace Sys2Proof.Machine

/-- The receive path (10_state.md R22 to R30). `rx_cnt` is a Nat whose 9-bit range is an invariant (log 15). -/
structure Rx where
  state : RxState
  cnt   : Nat
  l1    : Byte
  l2    : Byte
  s2    : Byte
  sum   : Byte
  cs    : Byte
  body  : Memory
deriving DecidableEq, Repr

/-- The result registers (10_state.md R32). -/
structure Res where
  code     : Code
  kind     : FrameKind
  c        : Byte
  a        : Byte
  ci       : Byte
  plen     : Nat
  pay      : Memory
  consumed : Nat
  byte     : Byte
deriving DecidableEq, Repr

/-- `tx_state` (10_state.md R40). -/
inductive TxState where
  | idle | sending
deriving DecidableEq, Repr

/-- The transmit path (10_state.md R40 to R44, R46). -/
structure Tx where
  state : TxState
  pos   : Nat
  kind  : FrameKind
  c     : Byte
  a     : Byte
  ci    : Byte
  plen  : Nat
  pay   : Memory
  len   : Nat
  code  : Code
  /-- `tx_sum`: any value once a frame is loaded (10_state.md R46, log 9). -/
  sum   : Byte
deriving DecidableEq, Repr

/-- An input event still to come (70_reset_and_hazards.md R321): bytes presented at a port, or an operation, which has
no bit encoding and is presented as itself (30_encoding.md R103; DESIGN CHOICE, log 1, log 6). -/
inductive Input where
  | coded (port : Port) (bytes : List Byte)
  | op (i : Instr)
deriving DecidableEq, Repr

/-- What stops the model in a state the spec's rules do not cover. No run from reset reaches either (40_rx_framer.md
R125; 41_tx_encoder.md R154), and the spec has no fault of its own (93_implementation_defined.md). -/
inductive Fault where
  /-- Raised by a received byte when `rx_state` and `rx_cnt` are a pair none of R111 to R118 applies to. Safe: the
  model stops where the spec says nothing (log 8). -/
  | rxNoRule
  /-- Raised by `TX_STEP` in `SENDING` when `tx_pos` is past the wire image, so that `tx_image[tx_pos]` is no byte.
  Safe, as above (log 8). -/
  | txNoByte
deriving DecidableEq, Repr

/-- What the model gives no meaning. -/
inductive Refusal where
  /-- An instruction whose arm has no meaning yet; raised by no arm of this model. Safe. -/
  | notModelled (mnemonic : String)
  /-- Raised by fetching when the bytes presented are no object of their port (a byte that is no special DIF, no byte at
  all, a received byte in a state no run reaches). Safe (log 16). -/
  | undecodable (e : DecodeError)
  /-- Raised by fetching, and by a meaning, when an operand is outside the domain its rule gives it (an index past the
  sequence, a layout that never reaches `EXTRACT`, a read outside its buffer, an item that is no record of the
  sequence). Safe (log 16). -/
  | illFormed
deriving DecidableEq, Repr

/-- The state of one block instance (10_state.md R20): the receive path, the result registers, the transmit path; the
configuration, fixed (log 3); and the model's own fields: the inputs still to come (log 1), the events and answers so far,
oldest first (log 4), and the count of free values taken (log 9). -/
structure State where
  rx        : Rx
  res       : Res
  tx        : Tx
  cfg       : Config
  inputs    : List Input
  events    : List Event
  answers   : List Answer
  freeCount : Nat
deriving DecidableEq, Repr

/-- The receive path after reset (10_state.md R51). -/
def Rx.reset : Rx := { state := .hunt, cnt := 0, l1 := 0, l2 := 0, s2 := 0, sum := 0, cs := 0, body := [] }

/-- The result registers after reset (10_state.md R51). -/
def Res.reset : Res :=
  { code := .none, kind := .ack, c := 0, a := 0, ci := 0, plen := 0, pay := [], consumed := 0, byte := 0 }

/-- The transmit path after reset (10_state.md R51). -/
def Tx.reset : Tx :=
  { state := .idle, pos := 0, kind := .ack, c := 0, a := 0, ci := 0, plen := 0, pay := [], len := 0, code := .none,
    sum := 0 }

/-- The block right after power-on with the default configuration and no input (10_state.md R51; 70_reset_and_hazards.md
R300). -/
def State.reset : State :=
  { rx := Rx.reset, res := Res.reset, tx := Tx.reset, cfg := defaultConfig, inputs := [], events := [], answers := [],
    freeCount := 0 }

end Sys2Proof.Machine
end

