-- ==== Sys2Proof/Machine/Flags.lean ====
section
/-! DEFINITION. Status bits, register encodings and the classifications offered to a host (10_state.md R22, R31, R32, R40,
R45; 60_exceptions.md R271; 40_rx_framer.md R124; 30_encoding.md R89). -/

namespace Sys2Proof.Machine

/-! ### Register encodings -/

/-- `rx_state` as a number (10_state.md R22). -/
def rxStateNum : RxState → Nat
  | .hunt => 0
  | .short => 1
  | .long => 2

/-- `tx_state` as a number (10_state.md R40). -/
def txStateNum : TxState → Nat
  | .idle => 0
  | .sending => 1

/-- `res_kind` and `tx_kind` as a number (10_state.md R32, R42). -/
def kindNum : FrameKind → Nat
  | .ack => 0
  | .short => 1
  | .control => 2
  | .long => 3

/-- The code of 60_exceptions.md R271; 9 is unused. -/
def codeNum : Code → Nat
  | .none => 0
  | .frameOk => 1
  | .framingError => 2
  | .incompleteFrame => 3
  | .lengthMismatch => 4
  | .checksumError => 5
  | .invalidFrame => 6
  | .malformedRecord => 7
  | .refused => 8
  | .txBusy => 10

/-- The code of a failed verdict (60_exceptions.md R271, R280). -/
def rxErrorCode : RxError → Code
  | .framingError => .framingError
  | .lengthMismatch => .lengthMismatch
  | .checksumError => .checksumError

/-- The code of a rejected request (41_tx_encoder.md R155). -/
def txErrorCode : TxError → Code
  | .invalidFrame => .invalidFrame
  | .txBusy => .txBusy

/-! ### Status bits -/

/-- `rx_busy` (10_state.md R31), the hardware form of `IncompleteFrame` (40_rx_framer.md R124). -/
def rxBusy (s : State) : Bool := decide (s.rx.state ≠ .hunt)

/-- `tx_busy` (10_state.md R45). -/
def txBusy (s : State) : Bool := decide (s.tx.state = .sending)

/-- The declared length of the frame in progress, where it is known (00_scope.md R18; 40_rx_framer.md R117). -/
def declaredLength (rx : Rx) : Option Nat :=
  match rx.state with
  | .hunt => none
  | .short => some 5
  | .long => if 2 ≤ rx.cnt then some (rx.l1.toNat + 6) else none

/-- The number of bytes the frame in progress still needs, where it is known (40_rx_framer.md R124). -/
def bytesNeeded (rx : Rx) : Option Nat := (declaredLength rx).map (· - rx.cnt)

/-- The position that selects a received byte's class (40_rx_framer.md R110). -/
def rxPos (rx : Rx) : RxPos := { st := rx.state, cnt := rx.cnt, l1 := rx.l1.toNat }

/-- The number of pulses of the output line `evt` so far: one for every event (60_exceptions.md R273). -/
def evtPulses (s : State) : Nat := s.events.length

/-! ### Address classes -/

/-- The classes of 30_encoding.md R89. -/
inductive AddrClass where
  | primary | unnamed | broadcastWithReply | unconfigured | broadcastNoReply
deriving DecidableEq, Repr

/-- `addr_class(A)`, offered to a host and used by no rule (30_encoding.md R89; 90_conflicts.md C1). -/
def addrClass (a : Byte) : AddrClass :=
  if a.toNat ≤ 250 then .primary
  else if a.toNat ≤ 252 then .unnamed
  else if a.toNat = 253 then .broadcastWithReply
  else if a.toNat = 254 then .unconfigured
  else .broadcastNoReply

end Sys2Proof.Machine
end

