-- ==== Sys2Proof/Machine/Ops.lean ====
section
/-! DEFINITION. The operations the meanings share: verdict entry and completion, which take the place of exception entry and
return (60_exceptions.md R280 to R282), the receive step (40_rx_framer.md R110 to R118), the transmit steps
(41_tx_encoder.md R150 to R157), host reads (44_control_ops.md R254) and feeding a byte sequence (30_encoding.md R102). -/

namespace Sys2Proof.Machine

/-- The outcome of a step of this machine. -/
abbrev Out := Host.Outcome State Fault Refusal

/-! ### Handing values to the host -/

/-- Hand a value back to the host; no register changes (43_dif_vif_rom.md R230 "Status: none"; log 4). -/
def answer (s : State) (a : Answer) : State := { s with answers := s.answers ++ [a] }

/-! ### Verdicts -/

/-- What a receive step leaves: the receive path, the result registers and at most one event (40_rx_framer.md R110). -/
structure RxOut where
  rx    : Rx
  res   : Res
  event : Option Event
deriving DecidableEq, Repr

/-- Error entry, `raise X(consumed = n, byte = v)` (60_exceptions.md R280). It is its own return: the path is back in
`HUNT` (R282). -/
def raiseError (kind : RxError) (n : Nat) (v : Byte) (rx : Rx) (res : Res) : RxOut :=
  { rx := { rx with state := .hunt, cnt := 0 }
    res :=
      { res with
        code := rxErrorCode kind
        consumed := n
        byte := if kind = .framingError then v else res.byte }
    event := some (.error kind n (if kind = .framingError then v else 0)) }

/-- The result registers after a good frame (60_exceptions.md R281; 10_state.md R35): only the fields the kind has. -/
def recordFrame (frame : Frame) (n : Nat) (res : Res) : Res :=
  match frame with
  | .ack => { res with code := .frameOk, kind := .ack, plen := 0, consumed := n }
  | .short c a => { res with code := .frameOk, kind := .short, c := c, a := a, plen := 0, consumed := n }
  | .control c a ci =>
    { res with code := .frameOk, kind := .control, c := c, a := a, ci := ci, plen := 0, consumed := n }
  | .long c a ci p =>
    { res with
      code := .frameOk, kind := .long, c := c, a := a, ci := ci
      plen := p.length, pay := res.pay.writeRange 0 p, consumed := n }

/-- Success completion, `complete(frame, consumed = n)` (60_exceptions.md R281). -/
def completeFrame (frame : Frame) (n : Nat) (rx : Rx) (res : Res) : RxOut :=
  { rx := { rx with state := .hunt, cnt := 0 }
    res := recordFrame frame n res
    event := some (.frameOk frame n) }

/-! ### The receive step -/

/-- A start delimiter in `HUNT` (40_rx_framer.md R113). -/
def rxStart (state : RxState) (rx : Rx) (res : Res) : RxOut :=
  { rx := { rx with sum := 0, cnt := 1, state := state }, res := res, event := none }

/-- A byte of a Short frame before the stop position (40_rx_framer.md R114). -/
def rxShortBody (b : Byte) (rx : Rx) (res : Res) : RxOut :=
  let rx' :=
    if rx.cnt = 1 then { rx with body := rx.body.write 0 b, sum := rx.sum + b }
    else if rx.cnt = 2 then { rx with body := rx.body.write 1 b, sum := rx.sum + b }
    else { rx with cs := b }
  { rx := { rx' with cnt := rx.cnt + 1 }, res := res, event := none }

/-- The stop position of a Short frame (40_rx_framer.md R115; priority R119). -/
def rxShortStop (b : Byte) (rx : Rx) (res : Res) : RxOut :=
  if b ≠ stopByte then raiseError .lengthMismatch 5 0 rx res
  else if rx.cs ≠ rx.sum then raiseError .checksumError 5 0 rx res
  else completeFrame (.short (rx.body.read 0) (rx.body.read 1)) 5 rx res

/-- A byte of a Control or Long frame before the stop position (40_rx_framer.md R116). -/
def rxLongBody (b : Byte) (rx : Rx) (res : Res) : RxOut :=
  let rx' :=
    if rx.cnt = 1 then { rx with l1 := b }
    else if rx.cnt = 2 then { rx with l2 := b }
    else if rx.cnt = 3 then { rx with s2 := b }
    else if rx.cnt ≤ rx.l1.toNat + 3 then { rx with body := rx.body.write (rx.cnt - 4) b, sum := rx.sum + b }
    else { rx with cs := b }
  { rx := { rx' with cnt := rx.cnt + 1 }, res := res, event := none }

/-- The stop position of a Control or Long frame (40_rx_framer.md R118; priority R119). -/
def rxLongStop (b : Byte) (rx : Rx) (res : Res) : RxOut :=
  let l := rx.l1.toNat
  let n := l + 6
  if rx.l2 ≠ rx.l1 then raiseError .lengthMismatch n 0 rx res
  else if rx.s2 ≠ startLong then raiseError .lengthMismatch n 0 rx res
  else if l < lMin then raiseError .lengthMismatch n 0 rx res
  else if b ≠ stopByte then raiseError .lengthMismatch n 0 rx res
  else if rx.cs ≠ rx.sum then raiseError .checksumError n 0 rx res
  else if l = lMin then
    completeFrame (.control (rx.body.read 0) (rx.body.read 1) (rx.body.read 2)) 9 rx res
  else
    completeFrame (.long (rx.body.read 0) (rx.body.read 1) (rx.body.read 2) (rx.body.readRange 3 (l - 3))) n rx res

/-- A byte in `HUNT` (40_rx_framer.md R111 to R113). -/
def rxHunt (b : Byte) (rx : Rx) (res : Res) : RxOut :=
  if b = ackByte then completeFrame .ack 1 rx res
  else if b = startShort then rxStart .short rx res
  else if b = startLong then rxStart .long rx res
  else raiseError .framingError 1 b rx res

/-- `RX_BYTE(b)` (40_rx_framer.md R110). None in the states no rule applies to, which no run reaches (R125, log 8). -/
def rxStep (b : Byte) (rx : Rx) (res : Res) : Option RxOut :=
  match rx.state with
  | .hunt => some (rxHunt b rx res)
  | .short =>
    if 1 ≤ rx.cnt ∧ rx.cnt ≤ 3 then some (rxShortBody b rx res)
    else if rx.cnt = 4 then some (rxShortStop b rx res)
    else none
  | .long =>
    if rx.cnt = 1 ∨ (2 ≤ rx.cnt ∧ rx.cnt ≤ rx.l1.toNat + 4) then some (rxLongBody b rx res)
    else if 2 ≤ rx.cnt ∧ rx.cnt = rx.l1.toNat + 5 then some (rxLongStop b rx res)
    else none

/-- The state after a receive step: one atomic update of the receive path and the result registers, and its event
(20_memory.md R66). -/
def applyRx (s : State) (o : RxOut) : State :=
  { s with rx := o.rx, res := o.res, events := s.events ++ o.event.toList }

/-- `RX_BYTE(b)` on the block (40_rx_framer.md R110). -/
def receive (b : Byte) (s : State) : Out :=
  match rxStep b s.rx s.res with
  | some o => .next (applyRx s o)
  | none => .fault .rxNoRule

/-- `feed(s)`: `RX_BYTE` of each byte in order (30_encoding.md R102). -/
def receiveAll : List Byte → State → Out
  | [], s => .next s
  | b :: bs, s =>
    match receive b s with
    | .next s' => receiveAll bs s'
    | .fault f => .fault f
    | .refused r => .refused r

/-- A receive byte class: its own effect where its condition holds, and what `RX_BYTE(b)` does elsewhere (log 7). -/
def receiveClass (applies : Bool) (own : RxOut) (b : Byte) (s : State) : Out :=
  if applies then .next (applyRx s own) else receive b s

/-- Apply `RX_BYTE` to the bytes of `buf` until one emits an event (40_rx_framer.md R130). -/
def decodeFrom (rx : Rx) (res : Res) : List Byte → DecodeResult
  | [] => .incomplete
  | b :: bs =>
    match rxStep b rx res with
    | none => .incomplete
    | some o =>
      match o.event with
      | some (.frameOk f n) => .ok f n
      | some (.error k n _) => .err k n
      | _ => decodeFrom o.rx o.res bs

/-! ### The transmit steps -/

/-- The frame a request or a descriptor names (41_tx_encoder.md R154); fields the kind does not use are ignored. -/
def frameOf (kind : FrameKind) (c a ci : Byte) (payload : List Byte) : Frame :=
  match kind with
  | .ack => .ack
  | .short => .short c a
  | .control => .control c a ci
  | .long => .long c a ci payload

/-- The frame a request asks for (41_tx_encoder.md R150). -/
def reqFrame (req : TxReq) : Frame := frameOf req.kind req.c req.a req.ci req.payload

/-- `encode(req)` (41_tx_encoder.md R150): the wire image, or none for `InvalidFrame` (R152). -/
def encodeReq (req : TxReq) : Option (List Byte) :=
  if req.kind = .long ∧ maxPayload < req.payload.length then none else some (wire (reqFrame req))

/-- The descriptor `TX_START` loads (41_tx_encoder.md R153): fields a kind does not use are written with 0
(10_state.md R42). -/
def loadTx (req : TxReq) (image : List Byte) (free : Byte) (tx : Tx) : Tx :=
  { state := .sending
    pos   := 0
    kind  := req.kind
    c     := if req.kind = .ack then 0 else req.c
    a     := if req.kind = .ack then 0 else req.a
    ci    := if req.kind = .ack ∨ req.kind = .short then 0 else req.ci
    plen  := if req.kind = .long then req.payload.length else 0
    pay   := if req.kind = .long then tx.pay.writeRange 0 req.payload else tx.pay
    len   := image.length
    code  := .frameOk
    sum   := free }

/-- A request that is not accepted writes `tx_code` and emits one event (41_tx_encoder.md R155). -/
def rejectTx (kind : TxError) (s : State) : State :=
  { s with tx := { s.tx with code := txErrorCode kind }, events := s.events ++ [.txRejected kind] }

/-- `TX_START(req)` (41_tx_encoder.md R153, R155): busy is tested before validity. -/
def startTx (req : TxReq) (s : State) : State :=
  match s.tx.state with
  | .sending => rejectTx .txBusy s
  | .idle =>
    match encodeReq req with
    | none => rejectTx .invalidFrame s
    | some image =>
      { s with tx := loadTx req image (Config.freeTxSum s.freeCount) s.tx, freeCount := s.freeCount + 1 }

/-- `tx_image`, a function of the descriptor registers (41_tx_encoder.md R154). -/
def txImage (tx : Tx) : List Byte := wire (frameOf tx.kind tx.c tx.a tx.ci (tx.pay.readRange 0 tx.plen))

/-- The transmit path after emitting a byte, and the events of the step (41_tx_encoder.md R156). -/
def advanceTx (b free : Byte) (tx : Tx) : Tx × List Event :=
  if tx.pos + 1 = tx.len then
    ({ tx with state := .idle, pos := 0, sum := free }, [.txByte b, .txDone])
  else ({ tx with pos := tx.pos + 1, sum := free }, [.txByte b])

/-- `TX_STEP` (41_tx_encoder.md R156, R157). -/
def stepTx (s : State) : Out :=
  match s.tx.state with
  | .idle => .next s
  | .sending =>
    match (txImage s.tx)[s.tx.pos]? with
    | none => .fault .txNoByte
    | some b =>
      let r := advanceTx b (Config.freeTxSum s.freeCount) s.tx
      .next { s with tx := r.1, events := s.events ++ r.2, freeCount := s.freeCount + 1 }

/-- `n` `TX_STEP`s (30_encoding.md R101, R102). -/
def stepTxTimes : Nat → State → Out
  | 0, s => .next s
  | n + 1, s =>
    match stepTx s with
    | .next s' => stepTxTimes n s'
    | .fault f => .fault f
    | .refused r => .refused r

/-- The bytes among events handed to the channel, in order. -/
def txBytes : List Event → List Byte
  | [] => []
  | .txByte b :: es => b :: txBytes es
  | .frameOk _ _ :: es => txBytes es
  | .error _ _ _ :: es => txBytes es
  | .txDone :: es => txBytes es
  | .txRejected _ :: es => txBytes es

/-- `TX_START(req)` followed by `tx_len` `TX_STEP`s (30_encoding.md R102; 41_tx_encoder.md R158). -/
def sendFrame (req : TxReq) (s : State) : Out :=
  let s1 := startTx req s
  stepTxTimes s1.tx.len s1

/-- What `encode` collects (30_encoding.md R102): the bytes emitted after `TX_START`, or why it was not accepted. -/
def collected (req : TxReq) (before after : State) : EncodeResult :=
  let s1 := startTx req before
  if s1.tx.code = .txBusy then .err .txBusy
  else if s1.tx.code = .invalidFrame then .err .invalidFrame
  else .ok (txBytes (after.events.drop s1.events.length))

/-! ### Control -/

/-- `RESET` (44_control_ops.md R250): every register and buffer takes its reset value; the configuration, the pending
inputs and what was already handed out stay. -/
def resetBlock (s : State) : State := { s with rx := Rx.reset, res := Res.reset, tx := Tx.reset }

/-- `RX_FLUSH` (44_control_ops.md R252). -/
def flushRx (s : State) : State := { s with rx := { s.rx with state := .hunt, cnt := 0, sum := 0 } }

/-- `MemRead(space, addr, n)` (20_memory.md R61), defined inside the buffer only. -/
def memRead (s : State) (space : Space) (addr n : Nat) : Option (List Byte) :=
  if addr + n ≤ spaceSize space then
    match space with
    | .rxBody => some (s.rx.body.readRange addr n)
    | .resPay => some (s.res.pay.readRange addr n)
    | .txPay => some (s.tx.pay.readRange addr n)
  else none

/-- A host read (44_control_ops.md R254): the current value, in the register's encoding. -/
def readReg (s : State) : Reg → Option Answer
  | .rxState => some (.reg (rxStateNum s.rx.state))
  | .rxCnt => some (.reg s.rx.cnt)
  | .rxL1 => some (.reg s.rx.l1.toNat)
  | .rxL2 => some (.reg s.rx.l2.toNat)
  | .rxS2 => some (.reg s.rx.s2.toNat)
  | .rxSum => some (.reg s.rx.sum.toNat)
  | .rxCs => some (.reg s.rx.cs.toNat)
  | .rxBusy => some (.reg (rxBusy s).toNat)
  | .resCode => some (.reg (codeNum s.res.code))
  | .resKind => some (.reg (kindNum s.res.kind))
  | .resC => some (.reg s.res.c.toNat)
  | .resA => some (.reg s.res.a.toNat)
  | .resCI => some (.reg s.res.ci.toNat)
  | .resPlen => some (.reg s.res.plen)
  | .resConsumed => some (.reg s.res.consumed)
  | .resByte => some (.reg s.res.byte.toNat)
  | .txState => some (.reg (txStateNum s.tx.state))
  | .txPos => some (.reg s.tx.pos)
  | .txKind => some (.reg (kindNum s.tx.kind))
  | .txC => some (.reg s.tx.c.toNat)
  | .txA => some (.reg s.tx.a.toNat)
  | .txCI => some (.reg s.tx.ci.toNat)
  | .txPlen => some (.reg s.tx.plen)
  | .txLen => some (.reg s.tx.len)
  | .txCode => some (.reg (codeNum s.tx.code))
  | .txBusy => some (.reg (txBusy s).toNat)
  | .txSum => some (.reg s.tx.sum.toNat)
  | .buffer space addr n => (memRead s space addr n).map .bytes

end Sys2Proof.Machine
end

