-- ==== Sys2Proof/Machine/Control.lean ====
section
/-! DEFINITION. The meanings of `RESET`, `RX_FLUSH` and host reads (44_control_ops.md R250, R252, R254). -/

namespace Sys2Proof.Machine

/-- Hand a result to the host, or refuse by name when the operand is outside the operation's domain (log 16). -/
def answerOrRefuse (s : State) (r : Option Answer) : Out :=
  match r with
  | some a => .next (answer s a)
  | none => .refused .illFormed

/-- `RESET` (44_control_ops.md R250). -/
def execReset (s : State) : Out := .next (resetBlock s)

/-- `RX_FLUSH` (44_control_ops.md R252). -/
def execRxFlush (s : State) : Out := .next (flushRx s)

/-- `HOST_READ` (44_control_ops.md R254; 20_memory.md R66): the current value is handed back and nothing changes. -/
def execHostRead (r : Reg) (s : State) : Out := answerOrRefuse s (readReg s r)

end Sys2Proof.Machine
end

