-- ==== Sys2Proof/Machine/DifData.lean ====
section
/-! DEFINITION. The meanings of the DIF data-field codes (43_dif_vif_rom.md R201, R202; 30_encoding.md R96): the layout the
configured `DIF_ROM` gives the code and its number of data bytes are handed back; no register changes (log 12). -/

namespace Sys2Proof.Machine

/-- The layout of a data-field code and its number of data bytes (43_dif_vif_rom.md R202; 30_encoding.md R96). -/
def dataFieldOf (cfg : Config) (code : BitVec 4) : Answer :=
  .dataField (difLookup cfg code) (dataBytesOf (difLookup cfg code))

/-- `DIF_DATA_0_NoData` (43_dif_vif_rom.md R201). -/
def execDifData0NoData (_e _g : BitVec 1) (_f : BitVec 2) (s : State) : Out :=
  .next (answer s (dataFieldOf s.cfg 0x0#4))

/-- `DIF_DATA_1_Int1` (43_dif_vif_rom.md R201). -/
def execDifData1Int1 (_e _g : BitVec 1) (_f : BitVec 2) (s : State) : Out :=
  .next (answer s (dataFieldOf s.cfg 0x1#4))

/-- `DIF_DATA_2_Int2` (43_dif_vif_rom.md R201). -/
def execDifData2Int2 (_e _g : BitVec 1) (_f : BitVec 2) (s : State) : Out :=
  .next (answer s (dataFieldOf s.cfg 0x2#4))

/-- `DIF_DATA_3_Int3` (43_dif_vif_rom.md R201). -/
def execDifData3Int3 (_e _g : BitVec 1) (_f : BitVec 2) (s : State) : Out :=
  .next (answer s (dataFieldOf s.cfg 0x3#4))

/-- `DIF_DATA_4_Int4` (43_dif_vif_rom.md R201). -/
def execDifData4Int4 (_e _g : BitVec 1) (_f : BitVec 2) (s : State) : Out :=
  .next (answer s (dataFieldOf s.cfg 0x4#4))

/-- `DIF_DATA_5_Real32` (43_dif_vif_rom.md R201). -/
def execDifData5Real32 (_e _g : BitVec 1) (_f : BitVec 2) (s : State) : Out :=
  .next (answer s (dataFieldOf s.cfg 0x5#4))

/-- `DIF_DATA_6_Int6` (43_dif_vif_rom.md R201). -/
def execDifData6Int6 (_e _g : BitVec 1) (_f : BitVec 2) (s : State) : Out :=
  .next (answer s (dataFieldOf s.cfg 0x6#4))

/-- `DIF_DATA_7_Int8` (43_dif_vif_rom.md R201). -/
def execDifData7Int8 (_e _g : BitVec 1) (_f : BitVec 2) (s : State) : Out :=
  .next (answer s (dataFieldOf s.cfg 0x7#4))

/-- `DIF_DATA_8_Selection` (43_dif_vif_rom.md R201). -/
def execDifData8Selection (_e _g : BitVec 1) (_f : BitVec 2) (s : State) : Out :=
  .next (answer s (dataFieldOf s.cfg 0x8#4))

/-- `DIF_DATA_9_Bcd2` (43_dif_vif_rom.md R201). -/
def execDifData9Bcd2 (_e _g : BitVec 1) (_f : BitVec 2) (s : State) : Out :=
  .next (answer s (dataFieldOf s.cfg 0x9#4))

/-- `DIF_DATA_A_Bcd4` (43_dif_vif_rom.md R201). -/
def execDifDataABcd4 (_e _g : BitVec 1) (_f : BitVec 2) (s : State) : Out :=
  .next (answer s (dataFieldOf s.cfg 0xA#4))

/-- `DIF_DATA_B_Bcd6` (43_dif_vif_rom.md R201). -/
def execDifDataBBcd6 (_e _g : BitVec 1) (_f : BitVec 2) (s : State) : Out :=
  .next (answer s (dataFieldOf s.cfg 0xB#4))

/-- `DIF_DATA_C_Bcd8` (43_dif_vif_rom.md R201). -/
def execDifDataCBcd8 (_e _g : BitVec 1) (_f : BitVec 2) (s : State) : Out :=
  .next (answer s (dataFieldOf s.cfg 0xC#4))

/-- `DIF_DATA_D_VarLen` (43_dif_vif_rom.md R201). -/
def execDifDataDVarLen (_e _g : BitVec 1) (_f : BitVec 2) (s : State) : Out :=
  .next (answer s (dataFieldOf s.cfg 0xD#4))

/-- `DIF_DATA_E_Bcd12` (43_dif_vif_rom.md R201). -/
def execDifDataEBcd12 (_e _g : BitVec 1) (_f : BitVec 2) (s : State) : Out :=
  .next (answer s (dataFieldOf s.cfg 0xE#4))

/-- `DIF_DATA_F_Special` (43_dif_vif_rom.md R201). -/
def execDifDataFSpecial (_e _g : BitVec 1) (_f : BitVec 2) (s : State) : Out :=
  .next (answer s (dataFieldOf s.cfg 0xF#4))

end Sys2Proof.Machine
end

