-- ==== Sys2Proof/WellFormed.lean ====
section
/-! DEFINITION. When an instruction's operands are in the domain its rule gives it, and when a configuration meets the
constraints of 00_scope.md R9 and 43_dif_vif_rom.md R211. -/

namespace Sys2Proof

/-- A record item that lies in `p` as 42_record_scan.md R170 and R180 (d) say: its header bytes stand at `start`, its
chains have their form, and its data ends at `stop`, inside `p`. -/
def Record.lies (p : List Byte) (r : Record) : Bool :=
  decide ((p.drop r.start).take (r.dataOff - r.start) = r.dif :: r.difes ++ r.vif :: r.vifes
    ∧ r.dataOff = r.start + (2 + r.difes.length + r.vifes.length)
    ∧ r.dataOff + r.dataLen = r.stop
    ∧ r.stop ≤ p.length)
  && Machine.chainForm r.dif r.difes && Machine.chainForm r.vif r.vifes

/-- A transmit request's payload has a length `tx_plen` can hold (10_state.md R42; 41_tx_encoder.md R150). -/
def TxReq.wf (req : TxReq) : Bool := decide (req.payload.length ≤ 65535)

/-- A host read stays inside its buffer (20_memory.md R61). -/
def Reg.wf : Reg → Bool
  | .buffer space addr n => decide (addr + n ≤ Machine.spaceSize space)
  | _ => true

/-- The operand of a decoder operation that stands in `RECIN` (20_memory.md R60; 42_record_scan.md R172, R177;
43_dif_vif_rom.md R230). -/
def Instr.recin : Instr → Option (List Byte)
  | .recHeader p _ => some p
  | .recScan p _ => some p
  | .recDecode p _ => some p
  | _ => none

/-- What the instruction takes from `RECIN` is within its bound (20_memory.md R60). The operations have meaning on any bytes
(42_record_scan.md R177; 70_reset_and_hazards.md R315), so a longer sequence runs all the same (log 11). -/
def Instr.recinFits (i : Instr) : Bool :=
  match i.recin with
  | some p => decide (p.length ≤ Machine.recinSize)
  | none => true

/-- The operands are in the domain the instruction's rule gives it. -/
def Instr.wf : Instr → Bool
  | .frameLong c a ci p => (Frame.long c a ci p).valid
  | .rxHuntOther b => decide (b ≠ ackByte ∧ b ≠ startShort ∧ b ≠ startLong)
  | .txStart req => req.wf
  | .encode req => req.wf
  | .send req => req.wf
  | .hostRead r => r.wf
  | .recHeader p i => decide (i < p.length)
  | .extract layout d => Machine.layoutOk layout && Machine.dataFits layout d
  | .recDecode p r => r.lies p
  | .difSpecialOther b => decide (b &&& 0x0F#8 = 0x0F#8 ∧ b ≠ 0x0F#8 ∧ b ≠ 0x1F#8 ∧ b ≠ 0x2F#8)
  | _ => true

/-- The power of ten of a unit in watt-hours, where it is one: Wh itself, and Wh with a prefix (log 21). -/
def wattHourPower : PhysUnit → Option Int
  | .wattHour => some 0
  | .other ['k', 'W', 'h'] => some 3
  | .other ['M', 'W', 'h'] => some 6
  | .other ['G', 'W', 'h'] => some 9
  | _ => none

/-- The scale `s` makes the unit `u` "kWh-class" (43_dif_vif_rom.md R211): `10^s u` is 1, 10 or 100 kWh. The spec gives the
word and not its extent (DESIGN CHOICE, log 21). -/
def kWhClass (u : PhysUnit) (s : Int) : Bool :=
  match wattHourPower u with
  | some e => decide (3 ≤ e + s ∧ e + s ≤ 5)
  | none => false

/-- A configuration meets its constraints: the layouts are those of 43_dif_vif_rom.md R200, and the two VIF codes the
source confirms name an energy of kWh-class scaling and a volume (00_scope.md R9; R211). -/
def Config.wf (cfg : Config) : Bool :=
  cfg.difRom.toList.all Machine.layoutOk
  && (match cfg.vifRom.get ⟨0x06, by decide⟩ with
      | .known .energy u s => kWhClass u s
      | _ => false)
  && (match cfg.vifRom.get ⟨0x13, by decide⟩ with
      | .known .volume _ _ => true
      | _ => false)

end Sys2Proof
end

