-- ==== Sys2Proof/Machine/Framer.lean ====
section
/-! DEFINITION. The meanings of the frame formats and of the receive path (30_encoding.md R80 to R87; 40_rx_framer.md R110 to
R118). -/

namespace Sys2Proof.Machine

/-- `FRAME_ACK`: the wire image of an Acknowledge arrives (30_encoding.md R80, R84; log 10). -/
def execFrameAck (s : State) : Out := receiveAll (wire .ack) s

/-- `FRAME_SHORT`: the wire image of a Short frame arrives (30_encoding.md R80, R84; log 10). -/
def execFrameShort (c a : Byte) (s : State) : Out := receiveAll (wire (.short c a)) s

/-- `FRAME_CONTROL`: the wire image of a Control frame arrives (30_encoding.md R80, R84; log 10). -/
def execFrameControl (c a ci : Byte) (s : State) : Out := receiveAll (wire (.control c a ci)) s

/-- `FRAME_LONG`: the wire image of a Long frame arrives (30_encoding.md R80, R84; log 10). It is defined for at most 252
payload bytes (R84); a longer payload is no operand of the row. -/
def execFrameLong (c a ci : Byte) (payload : List Byte) (s : State) : Out :=
  if payload.length ≤ maxPayload then receiveAll (wire (.long c a ci payload)) s else .refused .illFormed

/-- `RX_HUNT_ACK` (40_rx_framer.md R111). -/
def execRxHuntAck (s : State) : Out :=
  receiveClass (Instr.rxHuntAck.applies (rxPos s.rx)) (completeFrame .ack 1 s.rx s.res) ackByte s

/-- `RX_HUNT_START_SHORT` (40_rx_framer.md R113). -/
def execRxHuntStartShort (s : State) : Out :=
  receiveClass (Instr.rxHuntStartShort.applies (rxPos s.rx)) (rxStart .short s.rx s.res) startShort s

/-- `RX_HUNT_START_LONG` (40_rx_framer.md R113). -/
def execRxHuntStartLong (s : State) : Out :=
  receiveClass (Instr.rxHuntStartLong.applies (rxPos s.rx)) (rxStart .long s.rx s.res) startLong s

/-- `RX_HUNT_OTHER` (40_rx_framer.md R112); the row's byte is none of the start delimiters, and a delimiter is received as
what it is. -/
def execRxHuntOther (b : Byte) (s : State) : Out :=
  receiveClass ((Instr.rxHuntOther b).applies (rxPos s.rx) && (Instr.rxHuntOther b).wf)
    (raiseError .framingError 1 b s.rx s.res) b s

/-- `RX_SHORT_BODY` (40_rx_framer.md R114). -/
def execRxShortBody (b : Byte) (s : State) : Out :=
  receiveClass ((Instr.rxShortBody b).applies (rxPos s.rx)) (rxShortBody b s.rx s.res) b s

/-- `RX_SHORT_STOP` (40_rx_framer.md R115). -/
def execRxShortStop (b : Byte) (s : State) : Out :=
  receiveClass ((Instr.rxShortStop b).applies (rxPos s.rx)) (rxShortStop b s.rx s.res) b s

/-- `RX_LONG_BODY` (40_rx_framer.md R116). -/
def execRxLongBody (b : Byte) (s : State) : Out :=
  receiveClass ((Instr.rxLongBody b).applies (rxPos s.rx)) (rxLongBody b s.rx s.res) b s

/-- `RX_LONG_STOP` (40_rx_framer.md R118). -/
def execRxLongStop (b : Byte) (s : State) : Out :=
  receiveClass ((Instr.rxLongStop b).applies (rxPos s.rx)) (rxLongStop b s.rx s.res) b s

/-- `RX_BYTE(b)` (40_rx_framer.md R110). -/
def execRxByte (b : Byte) (s : State) : Out := receive b s

end Sys2Proof.Machine
end

