-- ==== Sys2Proof/Machine/Pseudo.lean ====
section
/-! DEFINITION. The meanings of the pseudo-operations (30_encoding.md R102), each the sequence of real operations it
abbreviates. -/

namespace Sys2Proof.Machine

/-- `feed(s)` (30_encoding.md R102). -/
def execFeed (bs : List Byte) (s : State) : Out := receiveAll bs s

/-- `decode(buf)` (40_rx_framer.md R130): a receive path in its reset state takes the bytes; it is "pure and
side-effect-free", so the block's own receive path is not touched (log 13). -/
def execDecode (buf : List Byte) (s : State) : Out :=
  .next (answer s (.decoded (decodeFrom Rx.reset Res.reset buf)))

/-- `encode(req)` (30_encoding.md R102; 41_tx_encoder.md R158): `TX_START(req)`, then `tx_len` `TX_STEP`s, collecting the
bytes (log 14). -/
def execEncode (req : TxReq) (s : State) : Out :=
  match sendFrame req s with
  | .next s' => .next (answer s' (.encoded (collected req s s')))
  | .fault f => .fault f
  | .refused r => .refused r

/-- `send(req)` (30_encoding.md R102): the same with the bytes handed to the channel (log 14). -/
def execSend (req : TxReq) (s : State) : Out := sendFrame req s

end Sys2Proof.Machine
end

