-- ==== Sys2Proof/Machine/Scan.lean ====
section
/-! DEFINITION. The record header walk and the record scan (42_record_scan.md): pure functions of their operands and of the
configuration. Every read is guarded (R171). -/

namespace Sys2Proof.Machine

/-- The result of walking a chain: the chain bytes and what follows them, or why the walk ends. -/
inductive Chain where
  | ok (bytes rest : List Byte)
  | pastEnd
  | tooLong
deriving DecidableEq, Repr

/-- The bytes of a chain whose `ext` bit is 1, at most `max` of them (42_record_scan.md R172 to R174): the end of the
payload is tested before the bound. -/
def walkChain : Nat → List Byte → Chain
  | _, [] => .pastEnd
  | 0, _ :: _ => .tooLong
  | max + 1, b :: rest =>
    if topBit b then
      match walkChain max rest with
      | .ok bytes rest' => .ok (b :: bytes) rest'
      | .pastEnd => .pastEnd
      | .tooLong => .tooLong
    else .ok [b] rest

/-- The chain that follows a DIF or VIF byte: entered when the byte's top bit is 1 (42_record_scan.md R173, R174). -/
def chainAfter (first : Byte) (max : Nat) (rest : List Byte) : Chain :=
  if topBit first then walkChain max rest else .ok [] rest

/-- The data length of a record, or why there is none (42_record_scan.md R175). -/
inductive DataLen where
  | len (n : Nat)
  | pastEnd
  | reserved
deriving DecidableEq, Repr

/-- What an LVAR byte says (30_encoding.md R99): a text length up to 0xBF, refused above. -/
def lvarResult (v : Byte) : LvarResult :=
  if v.toNat ≤ maxLvar then .text v.toNat else .reserved

/-- The data length, from the layout and, for `VarLen`, from the first data byte (42_record_scan.md R175). -/
def dataLen (layout : Layout) (rest : List Byte) : DataLen :=
  match dataBytesOf layout with
  | .fixed n => .len n
  | .onePlusLvar =>
    match rest with
    | [] => .pastEnd
    | v :: _ =>
      match lvarResult v with
      | .text n => .len (1 + n)
      | .reserved => .reserved
  | .special => .len 0

/-- A DIF whose layout is `Special` (42_record_scan.md R176), at index `i` of a payload of `plen` bytes. -/
def specialDif (plen i : Nat) (dif : Byte) : HeaderResult :=
  if dif = 0x2F#8 then .filler
  else if dif = 0x0F#8 then .item (.mfrTail i plen false)
  else if dif = 0x1F#8 then .item (.mfrTail i plen true)
  else .item (.refused i .specialDif)

/-- The data of a record whose header ends before `rest`, which starts at index `j` (42_record_scan.md R172). -/
def finishRecord (i j : Nat) (layout : Layout) (dif : Byte) (difes : List Byte) (vif : Byte) (vifes rest : List Byte) :
    HeaderResult :=
  match dataLen layout rest with
  | .pastEnd => .item (.malformed i)
  | .reserved => .item (.refused i .lvarReserved)
  | .len n =>
    if rest.length < n then .item (.malformed i)
    else
      .item (.record
        { start := i, stop := j + n, dif := dif, difes := difes, vif := vif, vifes := vifes, dataOff := j, dataLen := n })

/-- The VIF and VIFE chain of a record, after its DIF and DIFEs (42_record_scan.md R172, R174). -/
def walkVif (cfg : Config) (i : Nat) (layout : Layout) (dif : Byte) (difes : List Byte) : List Byte → HeaderResult
  | [] => .item (.malformed i)
  | vif :: rest =>
    if vifEntry cfg (valueCode vif) = .plainText then .item (.refused i .plainTextVif)
    else
      match chainAfter vif cfg.maxVife rest with
      | .pastEnd => .item (.malformed i)
      | .tooLong => .item (.refused i .chainTooLong)
      | .ok vifes rest' => finishRecord i (i + (2 + difes.length + vifes.length)) layout dif difes vif vifes rest'

/-- The header of a record whose DIF is `dif`, the rest of the payload being `rest` (42_record_scan.md R172). -/
def walkHeader (cfg : Config) (plen i : Nat) (dif : Byte) (rest : List Byte) : HeaderResult :=
  let layout := difLookup cfg (dataCode dif)
  if layout = .special then specialDif plen i dif
  else
    match chainAfter dif cfg.maxDife rest with
    | .pastEnd => .item (.malformed i)
    | .tooLong => .item (.refused i .chainTooLong)
    | .ok difes rest' => walkVif cfg i layout dif difes rest'

/-- `REC_HEADER(p, i)` (42_record_scan.md R172); none outside its domain `i < len(p)`. -/
def recHeader (cfg : Config) (p : List Byte) (i : Nat) : Option HeaderResult :=
  match p.drop i with
  | [] => none
  | dif :: rest => some (walkHeader cfg p.length i dif rest)

/-- The loop of `REC_SCAN` from index `i` on (42_record_scan.md R177). The index grows by at least 1 each turn, so
`len(p)` turns are enough. -/
def scanFrom (cfg : Config) (p : List Byte) : Nat → Nat → List Item
  | 0, _ => []
  | fuel + 1, i =>
    match recHeader cfg p i with
    | none => []
    | some .filler => scanFrom cfg p fuel (i + 1)
    | some (.item (.record r)) => .record r :: scanFrom cfg p fuel r.stop
    | some (.item it) => [it]

/-- `REC_SCAN(p, off)` (42_record_scan.md R177). -/
def recScan (cfg : Config) (p : List Byte) (off : Nat) : List Item :=
  if p.length < off then [.refused off .badOffset] else scanFrom cfg p p.length off

end Sys2Proof.Machine
end

