-- ==== Sys2Proof/Machine/Extract.lean ====
section
/-! DEFINITION. The VIF lookup, the extraction of a raw value and the decoding of a record (43_dif_vif_rom.md R212 to R230):
pure functions of their operands and of the configuration. -/

namespace Sys2Proof.Machine

/-! ### VIF_LOOKUP -/

/-- What `VIFE_ROM` makes of a VIF and its VIFEs: its triple where it has a `Known` entry, `reason` elsewhere
(43_dif_vif_rom.md R212, R213). -/
def vifeResult (cfg : Config) (vif : Byte) (vifes : List Byte) (reason : UnknownReason) : VifResult :=
  match vifeEntry cfg vif vifes with
  | some (.known q u s) => .resolved q u s
  | some .reserved => .unknown reason
  | some (.extTable _) => .unknown reason
  | some .plainText => .unknown reason
  | some .anyVif => .unknown reason
  | some .mfrSpecific => .unknown reason
  | none => .unknown reason

/-- `VIF_LOOKUP(vif, vifes)` (43_dif_vif_rom.md R212). -/
def vifLookup (cfg : Config) (vif : Byte) (vifes : List Byte) : VifResult :=
  match vifEntry cfg (valueCode vif) with
  | .known q u s => if vifes = [] then .resolved q u s else vifeResult cfg vif vifes .unresolvedVife
  | .extTable _ =>
    if topBit vif then vifeResult cfg vif vifes .extensionUnresolved else .unknown .reservedVif
  | .reserved => .unknown .reservedVif
  | .anyVif => .unknown .anyVif
  | .mfrSpecific => .unknown .manufacturerSpecific
  | .plainText => .refusedPlainText

/-! ### EXTRACT -/

/-- The no-value sentinel: a data field of at least one byte, all 0xFF or all 0x7F where the layout has that sentinel
(43_dif_vif_rom.md R221). -/
def isNoValue (t : Sentinels) (d : List Byte) : Bool :=
  decide (d ≠ []) && ((t.ff && d.all (· = 0xFF#8)) || (t.x7f && d.all (· = 0x7F#8)))

/-- The two digits of a byte are decimal (43_dif_vif_rom.md R223). -/
def bcdOk (b : Byte) : Bool := decide (bits b 7 4 ≤ 9 ∧ bits b 3 0 ≤ 9)

/-- The number two-digit bytes spell, least significant byte first (43_dif_vif_rom.md R223). -/
def bcdValue : List Byte → Nat
  | [] => 0
  | b :: bs => (bits b 7 4 * 10 + bits b 3 0) + 100 * bcdValue bs

/-- BCD (43_dif_vif_rom.md R223). -/
def extractBcd (d : List Byte) : Value := if d.all bcdOk then .num (bcdValue d) else .badBcd

/-- `EXTRACT(layout, d)` (43_dif_vif_rom.md R220); none for `Special`, which never reaches it. -/
def extract (cfg : Config) (layout : Layout) (d : List Byte) : Option Value :=
  let special := isNoValue (sentinelsOf cfg layout) d
  match layout with
  | .noData => some .empty
  | .selection => some .empty
  | .varLen => some (.text (d.drop 1))
  | .int _ => some (if special then .noValue else .num (leSint d))
  | .bcd _ => some (if special then .noValue else extractBcd d)
  | .real32 => some (if special then .noValue else .real (BitVec.ofNat 32 (leUint d)))
  | .special => none

/-! ### REC_DECODE -/

/-- `REC_DECODE(p, r)` for a record item `r` of `p` (43_dif_vif_rom.md R230); none when the record's layout is
`Special`, which no record item's is. -/
def readingOf (cfg : Config) (p : List Byte) (r : Record) : Option Reading :=
  let f := difFieldsOfByte r.dif
  let acc := difeAcc r.dif r.difes
  let d := (p.drop r.dataOff).take r.dataLen
  (extract cfg (difLookup cfg f.data) d).map fun v =>
    { tag := vifLookup cfg r.vif r.vifes, value := v
      storage := acc.storage, tariff := acc.tariff, subunit := acc.subunit, function := f.func
      vif := r.vif, vifes := r.vifes, raw := d }

/-- `REC_DECODE(p, r)` (43_dif_vif_rom.md R230), defined on the record items of `p`: none on anything else. -/
def recDecode (cfg : Config) (p : List Byte) (r : Record) : Option Reading :=
  if recHeader cfg p r.start = some (.item (.record r)) then readingOf cfg p r else none

/-- The readings of a list of scan items, in order, and the final item that is no record, where there is one
(43_dif_vif_rom.md R231). -/
def readItems (cfg : Config) (p : List Byte) : List Item → List Reading × Option Item
  | [] => ([], none)
  | .record r :: is =>
    let rest := readItems cfg p is
    ((recDecode cfg p r).toList ++ rest.1, rest.2)
  | it :: _ => ([], some it)

/-- Decoding a whole payload: `REC_SCAN`, then `REC_DECODE` on each record item (43_dif_vif_rom.md R231). -/
def decodePayload (cfg : Config) (p : List Byte) (off : Nat) : List Reading × Option Item :=
  readItems cfg p (recScan cfg p off)

end Sys2Proof.Machine
end

