-- ==== Sys2Proof/Machine/Decoder.lean ====
section
/-! DEFINITION. The meanings of the decoder functions (42_record_scan.md; 43_dif_vif_rom.md): each hands its result to the
host and changes no register. -/

namespace Sys2Proof.Machine

/-- `REC_HEADER(p, i)` (42_record_scan.md R172); its operand satisfies `i < len(p)`. -/
def execRecHeader (p : List Byte) (i : Nat) (s : State) : Out :=
  answerOrRefuse s ((recHeader s.cfg p i).map .header)

/-- `REC_SCAN(p, off)` (42_record_scan.md R177). -/
def execRecScan (p : List Byte) (off : Nat) (s : State) : Out := .next (answer s (.items (recScan s.cfg p off)))

/-- `DIF_LOOKUP(code)` (43_dif_vif_rom.md R202). -/
def execDifLookup (code : BitVec 4) (s : State) : Out := .next (answer s (.layout (difLookup s.cfg code)))

/-- `DIF_FIELDS(dif)` (43_dif_vif_rom.md R203). -/
def execDifFields (dif : Byte) (s : State) : Out := .next (answer s (.difFields (difFieldsOfByte dif)))

/-- `DIFE_ACC(dif, difes)` (43_dif_vif_rom.md R204). -/
def execDifeAcc (dif : Byte) (difes : List Byte) (s : State) : Out := .next (answer s (.acc (difeAcc dif difes)))

/-- `VIF_LOOKUP(vif, vifes)` (43_dif_vif_rom.md R212). -/
def execVifLookup (vif : Byte) (vifes : List Byte) (s : State) : Out :=
  .next (answer s (.vif (vifLookup s.cfg vif vifes)))

/-- `EXTRACT(layout, d)` (43_dif_vif_rom.md R220); `Special` never reaches it. -/
def execExtract (layout : Layout) (d : List Byte) (s : State) : Out :=
  answerOrRefuse s ((extract s.cfg layout d).map .value)

/-- `REC_DECODE(p, r)` (43_dif_vif_rom.md R230); `r` is a record item of `p`. -/
def execRecDecode (p : List Byte) (r : Record) (s : State) : Out :=
  answerOrRefuse s ((recDecode s.cfg p r).map .reading)

end Sys2Proof.Machine
end

