-- ==== Sys2Proof/Machine/RecordByte.lean ====
section
/-! DEFINITION. The meanings of the record byte formats, the function codes and the special DIF bytes (30_encoding.md R91 to
R94, R97, R99; 43_dif_vif_rom.md R203; 42_record_scan.md R176): the stateless decoder hands back what the byte says and
changes no register (log 12). -/

namespace Sys2Proof.Machine

/-- `DIF` (30_encoding.md R91). -/
def execDif (e g : BitVec 1) (f : BitVec 2) (d : BitVec 4) (s : State) : Out :=
  .next (answer s (.difFields (difFieldsOf e g f d)))

/-- `DIFE` (30_encoding.md R92). -/
def execDife (e u : BitVec 1) (t : BitVec 2) (n : BitVec 4) (s : State) : Out :=
  .next (answer s (.difeFields { ext := e, unit := u, tar := t, stor := n }))

/-- `VIF` (30_encoding.md R93). -/
def execVif (e : BitVec 1) (c : BitVec 7) (s : State) : Out :=
  .next (answer s (.vifFields { ext := e, code := c }))

/-- `VIFE` (30_encoding.md R94). -/
def execVife (e : BitVec 1) (c : BitVec 7) (s : State) : Out :=
  .next (answer s (.vifFields { ext := e, code := c }))

/-- `LVAR` (30_encoding.md R99). -/
def execLvar (v : Byte) (s : State) : Out := .next (answer s (.lvar (lvarResult v)))

/-- `DIF_FUNC_INSTANTANEOUS` (43_dif_vif_rom.md R203). -/
def execDifFuncInstantaneous (_e _g : BitVec 1) (_d : BitVec 4) (s : State) : Out :=
  .next (answer s (.func (Func.ofCode 0)))

/-- `DIF_FUNC_MAXIMUM` (43_dif_vif_rom.md R203). -/
def execDifFuncMaximum (_e _g : BitVec 1) (_d : BitVec 4) (s : State) : Out :=
  .next (answer s (.func (Func.ofCode 1)))

/-- `DIF_FUNC_MINIMUM` (43_dif_vif_rom.md R203). -/
def execDifFuncMinimum (_e _g : BitVec 1) (_d : BitVec 4) (s : State) : Out :=
  .next (answer s (.func (Func.ofCode 2)))

/-- `DIF_FUNC_ERROR` (43_dif_vif_rom.md R203). -/
def execDifFuncError (_e _g : BitVec 1) (_d : BitVec 4) (s : State) : Out :=
  .next (answer s (.func (Func.ofCode 3)))

/-- What `REC_HEADER` makes of a payload that begins with this DIF byte (42_record_scan.md R172, R176). -/
def headerOf (s : State) (dif : Byte) (rest : List Byte) : Out :=
  .next (answer s (.header (walkHeader s.cfg (rest.length + 1) 0 dif rest)))

/-- `DIF_MFR_TAIL` (42_record_scan.md R176): the rest of the payload is manufacturer data. -/
def execDifMfrTail (tail : List Byte) (s : State) : Out := headerOf s 0x0F#8 tail

/-- `DIF_MFR_TAIL_MORE` (42_record_scan.md R176): as 0x0F, and more records follow in a next telegram. -/
def execDifMfrTailMore (tail : List Byte) (s : State) : Out := headerOf s 0x1F#8 tail

/-- `DIF_FILLER` (42_record_scan.md R176): one byte long, no item. -/
def execDifFiller (s : State) : Out := headerOf s 0x2F#8 []

/-- `DIF_SPECIAL_OTHER` (42_record_scan.md R176): the item `Refused(i, SpecialDif)`. -/
def execDifSpecialOther (b : Byte) (s : State) : Out := headerOf s b []

end Sys2Proof.Machine
end

