-- ==== Sys2Proof/Machine/Transmit.lean ====
section
/-! DEFINITION. The meanings of the transmit commands (41_tx_encoder.md R153 to R157). -/

namespace Sys2Proof.Machine

/-- `TX_START(req)` (41_tx_encoder.md R153, R155). -/
def execTxStart (req : TxReq) (s : State) : Out := .next (startTx req s)

/-- `TX_STEP` (41_tx_encoder.md R156, R157). -/
def execTxStep (s : State) : Out := stepTx s

end Sys2Proof.Machine
end

