-- ==== Sys2Proof/Machine/VifCode.lean ====
section
/-! DEFINITION. The meanings of the VIF code rows (43_dif_vif_rom.md R211, R212): the entry the configured `VIF_ROM` gives the
code is handed back; no register changes (log 12). The code is the row's fixed bits above its scale bits. -/

namespace Sys2Proof.Machine

/-- `VIF_00_07_Energy` (43_dif_vif_rom.md R211). -/
def execVif00Energy (_e : BitVec 1) (n : BitVec 3) (s : State) : Out :=
  .next (answer s (.entry (vifEntry s.cfg (0x0#4 ++ n))))

/-- `VIF_08_0F_Energy` (43_dif_vif_rom.md R211). -/
def execVif08Energy (_e : BitVec 1) (n : BitVec 3) (s : State) : Out :=
  .next (answer s (.entry (vifEntry s.cfg (0x1#4 ++ n))))

/-- `VIF_10_17_Volume` (43_dif_vif_rom.md R211). -/
def execVif10Volume (_e : BitVec 1) (n : BitVec 3) (s : State) : Out :=
  .next (answer s (.entry (vifEntry s.cfg (0x2#4 ++ n))))

/-- `VIF_18_1F_Mass` (43_dif_vif_rom.md R211). -/
def execVif18Mass (_e : BitVec 1) (n : BitVec 3) (s : State) : Out :=
  .next (answer s (.entry (vifEntry s.cfg (0x3#4 ++ n))))

/-- `VIF_20_23_OnTime` (43_dif_vif_rom.md R211). -/
def execVif20OnTime (_e : BitVec 1) (n : BitVec 2) (s : State) : Out :=
  .next (answer s (.entry (vifEntry s.cfg (0x8#5 ++ n))))

/-- `VIF_24_27_OperatingTime` (43_dif_vif_rom.md R211). -/
def execVif24OperatingTime (_e : BitVec 1) (n : BitVec 2) (s : State) : Out :=
  .next (answer s (.entry (vifEntry s.cfg (0x9#5 ++ n))))

/-- `VIF_28_2F_Power` (43_dif_vif_rom.md R211). -/
def execVif28Power (_e : BitVec 1) (n : BitVec 3) (s : State) : Out :=
  .next (answer s (.entry (vifEntry s.cfg (0x5#4 ++ n))))

/-- `VIF_30_37_Power` (43_dif_vif_rom.md R211). -/
def execVif30Power (_e : BitVec 1) (n : BitVec 3) (s : State) : Out :=
  .next (answer s (.entry (vifEntry s.cfg (0x6#4 ++ n))))

/-- `VIF_38_3F_VolumeFlow` (43_dif_vif_rom.md R211). -/
def execVif38VolumeFlow (_e : BitVec 1) (n : BitVec 3) (s : State) : Out :=
  .next (answer s (.entry (vifEntry s.cfg (0x7#4 ++ n))))

/-- `VIF_40_47_VolumeFlow` (43_dif_vif_rom.md R211). -/
def execVif40VolumeFlow (_e : BitVec 1) (n : BitVec 3) (s : State) : Out :=
  .next (answer s (.entry (vifEntry s.cfg (0x8#4 ++ n))))

/-- `VIF_48_4F_VolumeFlow` (43_dif_vif_rom.md R211). -/
def execVif48VolumeFlow (_e : BitVec 1) (n : BitVec 3) (s : State) : Out :=
  .next (answer s (.entry (vifEntry s.cfg (0x9#4 ++ n))))

/-- `VIF_50_57_MassFlow` (43_dif_vif_rom.md R211). -/
def execVif50MassFlow (_e : BitVec 1) (n : BitVec 3) (s : State) : Out :=
  .next (answer s (.entry (vifEntry s.cfg (0xa#4 ++ n))))

/-- `VIF_58_5B_FlowTemperature` (43_dif_vif_rom.md R211). -/
def execVif58FlowTemperature (_e : BitVec 1) (n : BitVec 2) (s : State) : Out :=
  .next (answer s (.entry (vifEntry s.cfg (0x16#5 ++ n))))

/-- `VIF_5C_5F_ReturnTemperature` (43_dif_vif_rom.md R211). -/
def execVif5CReturnTemperature (_e : BitVec 1) (n : BitVec 2) (s : State) : Out :=
  .next (answer s (.entry (vifEntry s.cfg (0x17#5 ++ n))))

/-- `VIF_60_63_TemperatureDifference` (43_dif_vif_rom.md R211). -/
def execVif60TemperatureDifference (_e : BitVec 1) (n : BitVec 2) (s : State) : Out :=
  .next (answer s (.entry (vifEntry s.cfg (0x18#5 ++ n))))

/-- `VIF_64_67_ExternalTemperature` (43_dif_vif_rom.md R211). -/
def execVif64ExternalTemperature (_e : BitVec 1) (n : BitVec 2) (s : State) : Out :=
  .next (answer s (.entry (vifEntry s.cfg (0x19#5 ++ n))))

/-- `VIF_68_6B_Pressure` (43_dif_vif_rom.md R211). -/
def execVif68Pressure (_e : BitVec 1) (n : BitVec 2) (s : State) : Out :=
  .next (answer s (.entry (vifEntry s.cfg (0x1a#5 ++ n))))

/-- `VIF_6C_TimePoint` (43_dif_vif_rom.md R211). -/
def execVif6CTimePoint (_e : BitVec 1) (s : State) : Out :=
  .next (answer s (.entry (vifEntry s.cfg 0x6C#7)))

/-- `VIF_6D_TimePoint` (43_dif_vif_rom.md R211). -/
def execVif6DTimePoint (_e : BitVec 1) (s : State) : Out :=
  .next (answer s (.entry (vifEntry s.cfg 0x6D#7)))

/-- `VIF_6E_HcaUnits` (43_dif_vif_rom.md R211). -/
def execVif6EHcaUnits (_e : BitVec 1) (s : State) : Out :=
  .next (answer s (.entry (vifEntry s.cfg 0x6E#7)))

/-- `VIF_6F_Reserved` (43_dif_vif_rom.md R211). -/
def execVif6FReserved (_e : BitVec 1) (s : State) : Out :=
  .next (answer s (.entry (vifEntry s.cfg 0x6F#7)))

/-- `VIF_70_73_AveragingDuration` (43_dif_vif_rom.md R211). -/
def execVif70AveragingDuration (_e : BitVec 1) (n : BitVec 2) (s : State) : Out :=
  .next (answer s (.entry (vifEntry s.cfg (0x1c#5 ++ n))))

/-- `VIF_74_77_ActualityDuration` (43_dif_vif_rom.md R211). -/
def execVif74ActualityDuration (_e : BitVec 1) (n : BitVec 2) (s : State) : Out :=
  .next (answer s (.entry (vifEntry s.cfg (0x1d#5 ++ n))))

/-- `VIF_78_FabricationNo` (43_dif_vif_rom.md R211). -/
def execVif78FabricationNo (_e : BitVec 1) (s : State) : Out :=
  .next (answer s (.entry (vifEntry s.cfg 0x78#7)))

/-- `VIF_79_EnhancedId` (43_dif_vif_rom.md R211). -/
def execVif79EnhancedId (_e : BitVec 1) (s : State) : Out :=
  .next (answer s (.entry (vifEntry s.cfg 0x79#7)))

/-- `VIF_7A_BusAddress` (43_dif_vif_rom.md R211). -/
def execVif7ABusAddress (_e : BitVec 1) (s : State) : Out :=
  .next (answer s (.entry (vifEntry s.cfg 0x7A#7)))

/-- `VIF_7B_ExtTableFB` (43_dif_vif_rom.md R211). -/
def execVif7BExtTableFB (_e : BitVec 1) (s : State) : Out :=
  .next (answer s (.entry (vifEntry s.cfg 0x7B#7)))

/-- `VIF_7C_PlainText` (43_dif_vif_rom.md R211). -/
def execVif7CPlainText (_e : BitVec 1) (s : State) : Out :=
  .next (answer s (.entry (vifEntry s.cfg 0x7C#7)))

/-- `VIF_7D_ExtTableFD` (43_dif_vif_rom.md R211). -/
def execVif7DExtTableFD (_e : BitVec 1) (s : State) : Out :=
  .next (answer s (.entry (vifEntry s.cfg 0x7D#7)))

/-- `VIF_7E_AnyVif` (43_dif_vif_rom.md R211). -/
def execVif7EAnyVif (_e : BitVec 1) (s : State) : Out :=
  .next (answer s (.entry (vifEntry s.cfg 0x7E#7)))

/-- `VIF_7F_MfrSpecific` (43_dif_vif_rom.md R211). -/
def execVif7FMfrSpecific (_e : BitVec 1) (s : State) : Out :=
  .next (answer s (.entry (vifEntry s.cfg 0x7F#7)))

end Sys2Proof.Machine
end

