-- ==== Sys2Proof/Machine/Dispatch.lean ====
section
/-! DEFINITION. One arm per row of spec/opcode_table.json, in its order (44_control_ops.md R255; 30_encoding.md R103). -/

namespace Sys2Proof.Machine

/-- The meaning of an instruction. -/
def exec (i : Instr) (s : State) : Host.Outcome State Fault Refusal :=
  match i with
  | .frameAck => Sys2Proof.Machine.execFrameAck s
  | .frameShort c a => Sys2Proof.Machine.execFrameShort c a s
  | .frameControl c a ci => Sys2Proof.Machine.execFrameControl c a ci s
  | .frameLong c a ci p => Sys2Proof.Machine.execFrameLong c a ci p s
  | .rxHuntAck => Sys2Proof.Machine.execRxHuntAck s
  | .rxHuntStartShort => Sys2Proof.Machine.execRxHuntStartShort s
  | .rxHuntStartLong => Sys2Proof.Machine.execRxHuntStartLong s
  | .rxHuntOther b => Sys2Proof.Machine.execRxHuntOther b s
  | .rxShortBody b => Sys2Proof.Machine.execRxShortBody b s
  | .rxShortStop b => Sys2Proof.Machine.execRxShortStop b s
  | .rxLongBody b => Sys2Proof.Machine.execRxLongBody b s
  | .rxLongStop b => Sys2Proof.Machine.execRxLongStop b s
  | .rxByte b => Sys2Proof.Machine.execRxByte b s
  | .txStart req => Sys2Proof.Machine.execTxStart req s
  | .txStep => Sys2Proof.Machine.execTxStep s
  | .reset => Sys2Proof.Machine.execReset s
  | .rxFlush => Sys2Proof.Machine.execRxFlush s
  | .hostRead r => Sys2Proof.Machine.execHostRead r s
  | .recHeader p k => Sys2Proof.Machine.execRecHeader p k s
  | .recScan p off => Sys2Proof.Machine.execRecScan p off s
  | .difLookup code => Sys2Proof.Machine.execDifLookup code s
  | .difFields d => Sys2Proof.Machine.execDifFields d s
  | .difeAcc d ds => Sys2Proof.Machine.execDifeAcc d ds s
  | .vifLookup v vs => Sys2Proof.Machine.execVifLookup v vs s
  | .extract l d => Sys2Proof.Machine.execExtract l d s
  | .recDecode p r => Sys2Proof.Machine.execRecDecode p r s
  | .feed bs => Sys2Proof.Machine.execFeed bs s
  | .decode buf => Sys2Proof.Machine.execDecode buf s
  | .encode req => Sys2Proof.Machine.execEncode req s
  | .send req => Sys2Proof.Machine.execSend req s
  | .dif e g f d => Sys2Proof.Machine.execDif e g f d s
  | .dife e u t n => Sys2Proof.Machine.execDife e u t n s
  | .vif e c => Sys2Proof.Machine.execVif e c s
  | .vife e c => Sys2Proof.Machine.execVife e c s
  | .lvar v => Sys2Proof.Machine.execLvar v s
  | .difFuncInstantaneous e g d => Sys2Proof.Machine.execDifFuncInstantaneous e g d s
  | .difFuncMaximum e g d => Sys2Proof.Machine.execDifFuncMaximum e g d s
  | .difFuncMinimum e g d => Sys2Proof.Machine.execDifFuncMinimum e g d s
  | .difFuncError e g d => Sys2Proof.Machine.execDifFuncError e g d s
  | .difData0NoData e g f => Sys2Proof.Machine.execDifData0NoData e g f s
  | .difData1Int1 e g f => Sys2Proof.Machine.execDifData1Int1 e g f s
  | .difData2Int2 e g f => Sys2Proof.Machine.execDifData2Int2 e g f s
  | .difData3Int3 e g f => Sys2Proof.Machine.execDifData3Int3 e g f s
  | .difData4Int4 e g f => Sys2Proof.Machine.execDifData4Int4 e g f s
  | .difData5Real32 e g f => Sys2Proof.Machine.execDifData5Real32 e g f s
  | .difData6Int6 e g f => Sys2Proof.Machine.execDifData6Int6 e g f s
  | .difData7Int8 e g f => Sys2Proof.Machine.execDifData7Int8 e g f s
  | .difData8Selection e g f => Sys2Proof.Machine.execDifData8Selection e g f s
  | .difData9Bcd2 e g f => Sys2Proof.Machine.execDifData9Bcd2 e g f s
  | .difDataABcd4 e g f => Sys2Proof.Machine.execDifDataABcd4 e g f s
  | .difDataBBcd6 e g f => Sys2Proof.Machine.execDifDataBBcd6 e g f s
  | .difDataCBcd8 e g f => Sys2Proof.Machine.execDifDataCBcd8 e g f s
  | .difDataDVarLen e g f => Sys2Proof.Machine.execDifDataDVarLen e g f s
  | .difDataEBcd12 e g f => Sys2Proof.Machine.execDifDataEBcd12 e g f s
  | .difDataFSpecial e g f => Sys2Proof.Machine.execDifDataFSpecial e g f s
  | .difMfrTail tail => Sys2Proof.Machine.execDifMfrTail tail s
  | .difMfrTailMore tail => Sys2Proof.Machine.execDifMfrTailMore tail s
  | .difFiller => Sys2Proof.Machine.execDifFiller s
  | .difSpecialOther b => Sys2Proof.Machine.execDifSpecialOther b s
  | .vif00Energy e n => Sys2Proof.Machine.execVif00Energy e n s
  | .vif08Energy e n => Sys2Proof.Machine.execVif08Energy e n s
  | .vif10Volume e n => Sys2Proof.Machine.execVif10Volume e n s
  | .vif18Mass e n => Sys2Proof.Machine.execVif18Mass e n s
  | .vif20OnTime e n => Sys2Proof.Machine.execVif20OnTime e n s
  | .vif24OperatingTime e n => Sys2Proof.Machine.execVif24OperatingTime e n s
  | .vif28Power e n => Sys2Proof.Machine.execVif28Power e n s
  | .vif30Power e n => Sys2Proof.Machine.execVif30Power e n s
  | .vif38VolumeFlow e n => Sys2Proof.Machine.execVif38VolumeFlow e n s
  | .vif40VolumeFlow e n => Sys2Proof.Machine.execVif40VolumeFlow e n s
  | .vif48VolumeFlow e n => Sys2Proof.Machine.execVif48VolumeFlow e n s
  | .vif50MassFlow e n => Sys2Proof.Machine.execVif50MassFlow e n s
  | .vif58FlowTemperature e n => Sys2Proof.Machine.execVif58FlowTemperature e n s
  | .vif5CReturnTemperature e n => Sys2Proof.Machine.execVif5CReturnTemperature e n s
  | .vif60TemperatureDifference e n => Sys2Proof.Machine.execVif60TemperatureDifference e n s
  | .vif64ExternalTemperature e n => Sys2Proof.Machine.execVif64ExternalTemperature e n s
  | .vif68Pressure e n => Sys2Proof.Machine.execVif68Pressure e n s
  | .vif6CTimePoint e => Sys2Proof.Machine.execVif6CTimePoint e s
  | .vif6DTimePoint e => Sys2Proof.Machine.execVif6DTimePoint e s
  | .vif6EHcaUnits e => Sys2Proof.Machine.execVif6EHcaUnits e s
  | .vif6FReserved e => Sys2Proof.Machine.execVif6FReserved e s
  | .vif70AveragingDuration e n => Sys2Proof.Machine.execVif70AveragingDuration e n s
  | .vif74ActualityDuration e n => Sys2Proof.Machine.execVif74ActualityDuration e n s
  | .vif78FabricationNo e => Sys2Proof.Machine.execVif78FabricationNo e s
  | .vif79EnhancedId e => Sys2Proof.Machine.execVif79EnhancedId e s
  | .vif7ABusAddress e => Sys2Proof.Machine.execVif7ABusAddress e s
  | .vif7BExtTableFB e => Sys2Proof.Machine.execVif7BExtTableFB e s
  | .vif7CPlainText e => Sys2Proof.Machine.execVif7CPlainText e s
  | .vif7DExtTableFD e => Sys2Proof.Machine.execVif7DExtTableFD e s
  | .vif7EAnyVif e => Sys2Proof.Machine.execVif7EAnyVif e s
  | .vif7FMfrSpecific e => Sys2Proof.Machine.execVif7FMfrSpecific e s

end Sys2Proof.Machine
end

