-- ==== Sys2Proof/Machine/Fetch.lean ====
section
/-! DEFINITION. Taking the next input event (70_reset_and_hazards.md R321): the instruction it is, and what is left of its
bytes. -/

namespace Sys2Proof.Machine

/-- The bytes of a presentation that an instruction did not take stay presented at the same port. -/
def leftover (port : Port) (rest : List Byte) : List Input := if rest = [] then [] else [.coded port rest]

/-- The instruction an input event is. Bytes are decoded at their port, the receive path's position selecting the class
of a channel byte (40_rx_framer.md R110). A burst presented as a frame that is no frame is received byte by byte all the
same, since every byte sequence has a defined outcome (30_encoding.md R88, log 10). -/
def fetch (s : State) : Input → Except Refusal (Instr × List Input)
  | .op i => if i.wf then .ok (i, []) else .error .illFormed
  | .coded port bytes =>
    match decode (rxPos s.rx) port bytes with
    | .ok (i, rest) => .ok (i, leftover port rest)
    | .error e => if port = .frame then .ok (.feed bytes, []) else .error (.undecodable e)

end Sys2Proof.Machine
end

