-- ==== Sys2Proof/Machine/Step.lean ====
section
/-! DEFINITION. One step of the block: the next input event is taken and its instruction runs (70_reset_and_hazards.md R321).
With no input the block waits and nothing changes (10_state.md R51; 00_scope.md R7: silence is not an input; log 1). -/

namespace Sys2Proof.Machine

/-- One step. -/
def step (s : State) : Host.Outcome State Fault Refusal :=
  match s.inputs with
  | [] => .next s
  | input :: later =>
    match fetch s input with
    | .ok (i, more) => exec i { s with inputs := more ++ later }
    | .error r => .refused r

/-- `s` with a word of the opcode table as its next input, presented where `tablePort` says (log 2, log 5). A channel byte
takes its class from the receive path (40_rx_framer.md R110), so the classes of `HUNT` run where that path is hunting, as
it is after reset. -/
def State.withFetchWord (s : State) (nbits w : Nat) : State :=
  { s with inputs := .coded (tablePort (tableBytes nbits w)) (tableBytes nbits w) :: s.inputs }

end Sys2Proof.Machine
end

