-- ==== Sys2Proof/Machine/FinalValue.lean ====
section
/-! DEFINITION. The final value of a reading (43_dif_vif_rom.md R227): a mathematical definition, which the block itself does
not compute, and the default `REAL_INTERP` (R226). Numbers are in any field `K`: the reals, as the spec has it, or the
rationals where a value is to be computed (log 18). -/

namespace Sys2Proof.Machine

/-- A final value (43_dif_vif_rom.md R227): an exact rational, or what `REAL_INTERP` and the scale give. -/
inductive FinalVal (K : Type) where
  | exact (q : Rat)
  | real (x : RealVal K)
deriving DecidableEq, Repr

/-- `10^e` for an integer `e` (00_scope.md R12). -/
def pow10 {K : Type} [Field K] (e : Int) : K := if 0 ≤ e then 10 ^ e.toNat else 1 / 10 ^ (-e).toNat

/-- `2^e` for an integer `e`. -/
def pow2 {K : Type} [Field K] (e : Int) : K := if 0 ≤ e then 2 ^ e.toNat else 1 / 2 ^ (-e).toNat

/-- IEEE 754 binary32, the default `REAL_INTERP` (43_dif_vif_rom.md R226; PRESUMED, log 18): sign `bits[31]`, exponent
`bits[30:23]`, fraction `bits[22:0]`. -/
def binary32 {K : Type} [Field K] (w : Word32) : RealVal K :=
  let negative := w.getLsbD 31
  let sign : K := if negative then -1 else 1
  let e := (w.extractLsb' 23 8).toNat
  let f := (w.extractLsb' 0 23).toNat
  if e = 255 then (if f = 0 then .infinity negative else .nan)
  else if e = 0 then .number (sign * f * pow2 (-149))
  else .number (sign * (2 ^ 23 + f : Nat) * pow2 ((e : Int) - 150))

/-- The default of every open parameter (00_scope.md R9). -/
def defaultParameters {K : Type} [Field K] : Parameters K := { config := defaultConfig, realInterp := binary32 }

/-- A real value times `10^s` (43_dif_vif_rom.md R227). The rule says what a real number gives; that NaN stays NaN and an
infinity stays what it is are the model's (DESIGN CHOICE, log 18). -/
def scaleReal {K : Type} [Field K] (s : Int) : RealVal K → RealVal K
  | .number x => .number (x * pow10 s)
  | .infinity n => .infinity n
  | .nan => .nan

/-- The final value of a value tagged `Resolved(q, u, s)` (43_dif_vif_rom.md R227): text and the sentinels have none. -/
def scaledValue {K : Type} [Field K] (realInterp : Word32 → RealVal K) (s : Int) : Value → Option (FinalVal K)
  | .num raw => some (.exact (raw * pow10 s))
  | .real w => some (.real (scaleReal s (realInterp w)))
  | .text _ => none
  | .noValue => none
  | .empty => none
  | .badBcd => none

/-- The final value of a reading under `REAL_INTERP`; none for a reading tagged `Unknown` (43_dif_vif_rom.md R227). -/
def finalValue {K : Type} [Field K] (realInterp : Word32 → RealVal K) (r : Reading) : Option (FinalVal K) :=
  match r.tag with
  | .resolved _ _ s => scaledValue realInterp s r.value
  | .unknown _ => none
  | .refusedPlainText => none

/-- The final value of a record item of `p` under the open parameters (43_dif_vif_rom.md R227, R230). -/
def recordFinalValue {K : Type} [Field K] (params : Parameters K) (p : List Byte) (r : Record) : Option (FinalVal K) :=
  (recDecode params.config p r).bind (finalValue params.realInterp)

end Sys2Proof.Machine
end

