-- ==== Sys2Proof/Machine/System.lean ====
section
/-! DEFINITION. Several instances, one per bus, sharing nothing: the state of the system is the product of theirs
(10_state.md R21; 60_exceptions.md R288). -/

namespace Sys2Proof.Machine

/-- The states of the instances, in bus order. -/
abbrev System := List State

/-- A step of instance `k`; a system without that instance does not change. -/
def stepAt (k : Nat) (sys : System) : Host.Outcome System Fault Refusal :=
  match sys[k]? with
  | none => .next sys
  | some s =>
    match step s with
    | .next s' => .next (sys.set k s')
    | .fault f => .fault f
    | .refused r => .refused r

end Sys2Proof.Machine
end

