-- ==== Sys2Proof/Safety.lean ====
section
/-! DEFINITION. The terms claims use: the launch premises (70_reset_and_hazards.md R302), the invariants of the receive path
(40_rx_framer.md R125) and of the registers (10_state.md R23, R32, R41 to R44), and what a step that stops is. -/

namespace Sys2Proof

/-- The encoding of an instruction is one byte at the channel: it is a receive byte class. -/
abbrev Instr.classByte (i : Instr) (b : Byte) : Prop := Sys2Proof.encode i = some (.channel, [b])

/-- The instructions of the stateless decoder `DEC` and the host's own questions: they read the block and write nothing
(10_state.md R20; 20_memory.md R66; 40_rx_framer.md R130). -/
def Instr.asks : Instr → Bool
  | .frameAck | .frameShort _ _ | .frameControl _ _ _ | .frameLong _ _ _ _ => false
  | .rxHuntAck | .rxHuntStartShort | .rxHuntStartLong | .rxHuntOther _ => false
  | .rxShortBody _ | .rxShortStop _ | .rxLongBody _ | .rxLongStop _ | .rxByte _ => false
  | .txStart _ | .txStep | .reset | .rxFlush => false
  | .feed _ | .encode _ | .send _ => false
  | _ => true

/-- The instructions of the receive path: a frame, a byte class, a byte, or a sequence of bytes arrives. -/
def Instr.receives : Instr → Bool
  | .frameAck | .frameShort _ _ | .frameControl _ _ _ | .frameLong _ _ _ _ => true
  | .rxHuntAck | .rxHuntStartShort | .rxHuntStartLong | .rxHuntOther _ => true
  | .rxShortBody _ | .rxShortStop _ | .rxLongBody _ | .rxLongStop _ | .rxByte _ => true
  | .feed _ => true
  | _ => false

/-- The instructions of the transmit path. -/
def Instr.transmits : Instr → Bool
  | .txStart _ | .txStep | .encode _ | .send _ => true
  | _ => false

end Sys2Proof

namespace Sys2Proof.Machine

/-! ### Launch premises -/

/-- `CleanRx` (70_reset_and_hazards.md R302). -/
abbrev CleanRx (s : State) : Prop := s.rx.state = .hunt ∧ s.rx.cnt = 0

/-- `CleanTx` (70_reset_and_hazards.md R302). -/
abbrev CleanTx (s : State) : Prop := s.tx.state = .idle ∧ s.tx.pos = 0

/-- `NoVerdict` (70_reset_and_hazards.md R302). -/
abbrev NoVerdict (s : State) : Prop := s.res.code = .none

/-- The received bytes an input event delivers: those presented at the channel or as a frame, and those of an operation that
is the arrival of bytes (40_rx_framer.md R110; 30_encoding.md R102; log 10). -/
def Input.delivered : Input → List Byte
  | .coded .channel bytes => bytes
  | .coded .frame bytes => bytes
  | .coded _ _ => []
  | .op (.rxByte b) => [b]
  | .op (.feed bytes) => bytes
  | .op i =>
    match encode i with
    | some (.channel, bytes) => bytes
    | some (.frame, bytes) => bytes
    | some (_, _) => []
    | none => []

/-- `ChannelEmpty`: the channel holds no undelivered byte (70_reset_and_hazards.md R302). It ranges over every byte still to
come in `State.inputs`, those that arrive later among them (DESIGN CHOICE, log 22). -/
abbrev ChannelEmpty (s : State) : Prop := ∀ i ∈ s.inputs, i.delivered = []

/-! ### Invariants -/

/-- The running checksum of the frame in progress (40_rx_framer.md R125 (c)). -/
abbrev SumOk (rx : Rx) : Prop :=
  (rx.state = .short → rx.sum = sum8 (rx.body.readRange 0 (min (rx.cnt - 1) 2)))
  ∧ (rx.state = .long → 4 ≤ rx.cnt → rx.sum = sum8 (rx.body.readRange 0 (min (rx.cnt - 4) rx.l1.toNat)))
  ∧ (rx.state = .long → rx.cnt ≤ 3 → rx.sum = 0)

/-- The sequencing state of the receive path (40_rx_framer.md R125 (a), (b); 10_state.md R23). -/
abbrev RxSeqOk (rx : Rx) : Prop :=
  (rx.state = .hunt ↔ rx.cnt = 0)
  ∧ (rx.state = .short → 1 ≤ rx.cnt ∧ rx.cnt ≤ 4)
  ∧ (rx.state = .long → rx.cnt = 1 ∨ (2 ≤ rx.cnt ∧ rx.cnt ≤ rx.l1.toNat + 5))

/-- A byte buffer is in canonical form and inside its size (20_memory.md R60, R61). -/
abbrev BufferOk (m : Memory) (space : Space) : Prop := m.wf ∧ m.within (spaceSize space)

/-- The receive path is in a reachable form. -/
abbrev RxOk (rx : Rx) : Prop := RxSeqOk rx ∧ SumOk rx ∧ BufferOk rx.body .rxBody

/-- The result registers hold legal values (10_state.md R32). -/
abbrev ResOk (res : Res) : Prop :=
  (res.code = .none ∨ res.code = .frameOk ∨ res.code = .framingError ∨ res.code = .lengthMismatch
    ∨ res.code = .checksumError)
  ∧ (res.code = .none ∨ 1 ≤ res.consumed) ∧ res.consumed ≤ 261
  ∧ res.plen ≤ 252 ∧ (res.kind = .long ∨ res.plen = 0)
  ∧ BufferOk res.pay .resPay

/-- The transmit registers hold legal values (10_state.md R41 to R44; 41_tx_encoder.md R154). -/
abbrev TxOk (tx : Tx) : Prop :=
  (tx.state = .idle → tx.pos = 0)
  ∧ (tx.state = .sending → tx.pos < tx.len ∧ tx.len = (txImage tx).length)
  ∧ tx.len ≤ 261 ∧ tx.plen ≤ 252 ∧ (tx.kind = .long ∨ tx.plen = 0)
  ∧ (tx.kind = .ack → tx.c = 0 ∧ tx.a = 0 ∧ tx.ci = 0) ∧ (tx.kind = .short → tx.ci = 0)
  ∧ (tx.code = .none ∨ tx.code = .frameOk ∨ tx.code = .invalidFrame ∨ tx.code = .txBusy)
  ∧ BufferOk tx.pay .txPay

/-- The invariant of one instance. -/
abbrev Inv (s : State) : Prop := RxOk s.rx ∧ ResOk s.res ∧ TxOk s.tx

/-- The bytes of the frame in progress, rebuilt from the state (40_rx_framer.md R125 (d)). -/
def rxAccepted (rx : Rx) : List Byte :=
  match rx.state with
  | .hunt => []
  | .short => [startShort, rx.body.read 0, rx.body.read 1, rx.cs].take rx.cnt
  | .long =>
    ([startLong, rx.l1, rx.l2, rx.s2] ++ rx.body.readRange 0 (min (rx.cnt - 4) rx.l1.toNat) ++ [rx.cs]).take rx.cnt

/-! ### Effects -/

/-- The instruction goes on, hands back one value and changes nothing else. -/
abbrev HandsBack (i : Instr) (s : State) (a : Answer) : Prop :=
  exec i s = .next { s with answers := s.answers ++ [a] }

/-- The element of `rx_body` the next received byte is stored to, where there is one (40_rx_framer.md R114, R116). -/
def bodyIndex (rx : Rx) : Option Nat :=
  match rx.state with
  | .hunt => none
  | .short => if rx.cnt = 1 then some 0 else if rx.cnt = 2 then some 1 else none
  | .long => if 4 ≤ rx.cnt ∧ rx.cnt ≤ rx.l1.toNat + 3 then some (rx.cnt - 4) else none

/-! ### Verdicts, written out -/

/-- The state after `raise X(consumed = n, byte = v)` (60_exceptions.md R280), where `s` is the state before. -/
def errorVerdict (s : State) (kind : RxError) (n : Nat) (v : Byte) : State :=
  match kind with
  | .framingError =>
    { s with
      rx := { s.rx with state := .hunt, cnt := 0 }
      res := { s.res with code := .framingError, consumed := n, byte := v }
      events := s.events ++ [.error .framingError n v] }
  | .lengthMismatch =>
    { s with
      rx := { s.rx with state := .hunt, cnt := 0 }
      res := { s.res with code := .lengthMismatch, consumed := n }
      events := s.events ++ [.error .lengthMismatch n 0] }
  | .checksumError =>
    { s with
      rx := { s.rx with state := .hunt, cnt := 0 }
      res := { s.res with code := .checksumError, consumed := n }
      events := s.events ++ [.error .checksumError n 0] }

/-- The result registers after `complete(frame, consumed = n)` (60_exceptions.md R281; 10_state.md R35), from those
before. -/
def goodResult (res : Res) (frame : Frame) (n : Nat) : Res :=
  match frame with
  | .ack => { res with code := .frameOk, kind := .ack, plen := 0, consumed := n }
  | .short c a => { res with code := .frameOk, kind := .short, c := c, a := a, plen := 0, consumed := n }
  | .control c a ci =>
    { res with code := .frameOk, kind := .control, c := c, a := a, ci := ci, plen := 0, consumed := n }
  | .long c a ci payload =>
    { code := .frameOk, kind := .long, c := c, a := a, ci := ci, plen := payload.length
      pay := res.pay.writeRange 0 payload, consumed := n, byte := res.byte }

/-- The state after `complete(frame, consumed = n)` (60_exceptions.md R281), where `s` is the state before. -/
def goodVerdict (s : State) (frame : Frame) (n : Nat) : State :=
  { s with
    rx := { s.rx with state := .hunt, cnt := 0 }
    res := goodResult s.res frame n
    events := s.events ++ [.frameOk frame n] }

/-- An event of the receive path (60_exceptions.md R270). -/
def Event.fromRx : Event → Bool
  | .frameOk _ _ => true
  | .error _ _ _ => true
  | .txByte _ => false
  | .txDone => false
  | .txRejected _ => false

/-- The event a result of `decode(buf)` stands for (40_rx_framer.md R136): the offending byte of a `FramingError` is the
first. -/
def eventOf (buf : List Byte) : DecodeResult → Option Event
  | .ok f n => some (.frameOk f n)
  | .err .framingError n => some (.error .framingError n (buf.headD 0))
  | .err k n => some (.error k n 0)
  | .incomplete => none

/-- The bytes a result of `decode(buf)` consumes (40_rx_framer.md R130). -/
def consumedOf : DecodeResult → Nat
  | .ok _ n => n
  | .err _ n => n
  | .incomplete => 0

/-- The event sequence of a byte stream by repeated decoding (40_rx_framer.md R136). Every verdict consumes at least one
byte, so `len(s)` turns are enough. -/
def streamEvents : Nat → List Byte → List Event
  | 0, _ => []
  | fuel + 1, bs =>
    match eventOf bs (decodeBuf bs) with
    | none => []
    | some e => e :: streamEvents fuel (bs.drop (consumedOf (decodeBuf bs)))

/-! ### Record scans -/

/-- The loop of `REC_SCAN` from index `i` on gives these items (42_record_scan.md R177). -/
inductive Scans (cfg : Config) (p : List Byte) : Nat → List Item → Prop where
  | finished {i : Nat} : p.length ≤ i → Scans cfg p i []
  | filler {i : Nat} {items : List Item} :
      recHeader cfg p i = some .filler → Scans cfg p (i + 1) items → Scans cfg p i items
  | record {i : Nat} {r : Record} {items : List Item} :
      recHeader cfg p i = some (.item (.record r)) → Scans cfg p r.stop items → Scans cfg p i (.record r :: items)
  | stops {i : Nat} {item : Item} :
      recHeader cfg p i = some (.item item) → (∀ r, item ≠ .record r) → Scans cfg p i [item]

/-- Where an item begins (42_record_scan.md R170). -/
def Item.start : Item → Nat
  | .record r => r.start
  | .mfrTail start _ _ => start
  | .malformed start => start
  | .refused start _ => start

/-- The record items of a list. -/
def recordsOf : List Item → List Record
  | [] => []
  | .record r :: is => r :: recordsOf is
  | .mfrTail _ _ _ :: is => recordsOf is
  | .malformed _ :: is => recordsOf is
  | .refused _ _ :: is => recordsOf is

/-! ### Safe steps -/

/-- The next step faults. -/
abbrev Faults (s : State) : Prop := ∃ f, step s = .fault f

/-- The next step goes on. -/
abbrev GoesOn (s : State) : Prop := ∃ s', step s = .next s'

/-- The pending input is one the environment can offer: an operation whose operands are in its domain, or bytes at the
channel or as a frame, or bytes the decoder reads at their port (log 16). A record item belongs to its sequence. -/
def offered (s : State) : Input → Bool
  | .op (.recDecode p r) => decide (recHeader s.cfg p r.start = some (.item (.record r))) && r.lies p
  | .op i => i.wf
  | .coded .frame _ => true
  | .coded port bytes =>
    match decode (rxPos s.rx) port bytes with
    | .ok _ => true
    | .error _ => false

end Sys2Proof.Machine
end

