-- ==== Sys2Proof/Certificates/Slice0/Obligations.lean ====
section
/-! DEFINITION. The statements for the provers, in the order of OBLIGATIONS.json. -/

section

open Sys2Proof Sys2Proof.Machine

/-! ### Encoding and fetching -/

/-- Words written out from the patterns of spec/opcode_table.json and the tables of 30_encoding.md R81, R91 to R94 decode to
the instructions they stand for. Where each word is presented is the model's choice (log 5). -/
def Obligations.WrittenOutWordsDecode : Prop :=
  decode RxPos.hunting .frame [0xE5] = .ok (.frameAck, [])
  ∧ decode RxPos.hunting .frame [0x10, 0x40, 0x01, 0x41, 0x16] = .ok (.frameShort 0x40 0x01, [])
  ∧ decode RxPos.hunting .frame [0x68, 0x03, 0x03, 0x68, 0x53, 0x01, 0x51, 0xA5, 0x16]
      = .ok (.frameControl 0x53 0x01 0x51, [])
  ∧ decode RxPos.hunting .frame [0x68, 0x04, 0x04, 0x68, 0x08, 0x01, 0x72, 0x2A, 0xA5, 0x16]
      = .ok (.frameLong 0x08 0x01 0x72 [0x2A], [])
  ∧ decode RxPos.hunting .channel [0x68] = .ok (.rxHuntStartLong, [])
  ∧ decode { st := .long, cnt := 4, l1 := 1 } .channel [0x16] = .ok (.rxLongBody 0x16, [])
  ∧ decode { st := .short, cnt := 4, l1 := 0 } .channel [0x16] = .ok (.rxShortStop 0x16, [])
  ∧ decode RxPos.hunting .dif [0x95] = .ok (.dif 1 0 1 5, [])
  ∧ decode RxPos.hunting .dife [0xD2] = .ok (.dife 1 1 1 2, [])
  ∧ decode RxPos.hunting .vif [0x93] = .ok (.vif 1 0x13, [])
  ∧ decode RxPos.hunting .vife [0x3C] = .ok (.vife 0 0x3C, [])
  ∧ decode RxPos.hunting .lvar [0xBF] = .ok (.lvar 0xBF, [])
  ∧ decode RxPos.hunting .difFunction [0x2C] = .ok (.difFuncMinimum 0 0 0xC, [])
  ∧ decode RxPos.hunting .difData [0x8C] = .ok (.difDataCBcd8 1 0 0, [])
  ∧ decode RxPos.hunting .vifCode [0x13] = .ok (.vif10Volume 0 3, [])
  ∧ decode RxPos.hunting .vifCode [0xFD] = .ok (.vif7DExtTableFD 1, [])
  ∧ decode RxPos.hunting .difSpecial [0x0F, 0xAA] = .ok (.difMfrTail [0xAA], [])
  ∧ decode RxPos.hunting .difSpecial [0x2F, 0x04] = .ok (.difFiller, [0x04])

/-- Decoding the encoding of a well-formed instruction gives the instruction back, whatever follows it on the wire; 0x0F
and 0x1F take all that follows with them, so nothing follows those. Every row that has an encoding. -/
def Obligations.DecodingAnEncodingGivesTheInstructionBack : Prop :=
  ∀ (i : Instr) (pos : RxPos) (port : Port) (w rest : List Byte),
    i.wf = true → i.applies pos = true → encode i = some (port, w) →
    (rest = [] ∨ ∀ tail, i ≠ .difMfrTail tail ∧ i ≠ .difMfrTailMore tail) →
    decode pos port (w ++ rest) = .ok (i, rest)

/-- What the decoder reads is a well-formed instruction, in the state its row asks for, and the bytes it took are that
instruction's encoding: no bit is dropped and no reserved byte falls through to a neighbour. -/
def Obligations.WhatTheDecoderReadsReencodes : Prop :=
  ∀ (pos : RxPos) (port : Port) (bytes rest : List Byte) (i : Instr),
    decode pos port bytes = .ok (i, rest) →
    i.wf = true ∧ i.applies pos = true ∧ ∃ w, encode i = some (port, w) ∧ bytes = w ++ rest

/-- A step runs the instruction the next input is (70_reset_and_hazards.md R321; the input list is the model's, log 1): an
operation as it is, bytes as the decoder reads them at their port, and a burst presented as a frame that is none byte by
byte (log 10). With no input the block waits. What is no instruction is refused by name (log 16). -/
def Obligations.StepRunsTheNextInput : Prop :=
  ∀ s : State,
    (s.inputs = [] → step s = .next s)
    ∧ (∀ i later, s.inputs = .op i :: later → i.wf = true → step s = exec i { s with inputs := later })
    ∧ (∀ port bytes later i rest, s.inputs = .coded port bytes :: later → decode (rxPos s.rx) port bytes = .ok (i, rest) →
        step s = exec i { s with inputs := if rest = [] then later else .coded port rest :: later })
    ∧ (∀ bytes later e, s.inputs = .coded .frame bytes :: later → decode (rxPos s.rx) .frame bytes = .error e →
        step s = exec (.feed bytes) { s with inputs := later })
    ∧ (∀ i later, s.inputs = .op i :: later → i.wf = false → step s = .refused .illFormed)
    ∧ (∀ port bytes later e, port ≠ .frame → s.inputs = .coded port bytes :: later →
        decode (rxPos s.rx) port bytes = .error e → step s = .refused (.undecodable e))

/-! ### The receive step -/

/-- A byte in `HUNT` (40_rx_framer.md R111, R112, R113): 0xE5 completes an Acknowledge, 0x10 and 0x68 begin a frame, and
any other byte is a `FramingError`; 0xE5 inside a frame completes no Acknowledge. -/
def Obligations.AByteInHunt : Prop :=
  (∀ (s : State) (i : Instr), s.rx.state = .hunt → i = .rxHuntAck ∨ i = .rxByte 0xE5 →
    exec i s = .next (goodVerdict s .ack 1))
  ∧ (∀ (s t : State), s.rx.state ≠ .hunt → exec (.rxByte 0xE5) s = .next t →
      t.events ≠ s.events ++ [.frameOk .ack 1])
  ∧ (∀ (s : State) (i : Instr), s.rx.state = .hunt → i = .rxHuntStartShort ∨ i = .rxByte 0x10 →
      exec i s = .next { s with rx := { s.rx with sum := 0, cnt := 1, state := .short } })
  ∧ (∀ (s : State) (i : Instr), s.rx.state = .hunt → i = .rxHuntStartLong ∨ i = .rxByte 0x68 →
      exec i s = .next { s with rx := { s.rx with sum := 0, cnt := 1, state := .long } })
  ∧ (∀ (s : State) (b : Byte) (i : Instr), s.rx.state = .hunt → b ≠ 0xE5 → b ≠ 0x10 → b ≠ 0x68 →
      i = .rxHuntOther b ∨ i = .rxByte b → exec i s = .next (errorVerdict s .framingError 1 b))

/-- A byte of a Short frame before the stop position (40_rx_framer.md R114): C and A are stored and summed, CS is stored
and not summed; any byte value is accepted. -/
def Obligations.AByteOfAShortFrame : Prop :=
  ∀ (s : State) (b : Byte) (i : Instr), s.rx.state = .short → i = .rxShortBody b ∨ i = .rxByte b →
    (s.rx.cnt = 1 →
      exec i s = .next { s with rx := { s.rx with body := s.rx.body.write 0 b, sum := s.rx.sum + b, cnt := 2 } })
    ∧ (s.rx.cnt = 2 →
      exec i s = .next { s with rx := { s.rx with body := s.rx.body.write 1 b, sum := s.rx.sum + b, cnt := 3 } })
    ∧ (s.rx.cnt = 3 → exec i s = .next { s with rx := { s.rx with cs := b, cnt := 4 } })

/-- The stop position of a Short frame (40_rx_framer.md R115), with the priority of R119. -/
def Obligations.TheStopOfAShortFrame : Prop :=
  ∀ (s : State) (b : Byte) (i : Instr), s.rx.state = .short → s.rx.cnt = 4 → i = .rxShortStop b ∨ i = .rxByte b →
    exec i s = .next
      (if b ≠ 0x16 then errorVerdict s .lengthMismatch 5 0
       else if s.rx.cs ≠ s.rx.sum then errorVerdict s .checksumError 5 0
       else goodVerdict s (.short (s.rx.body.read 0) (s.rx.body.read 1)) 5)

/-- A byte of a Control or Long frame before the stop position (40_rx_framer.md R116): the two length bytes and the
repeated start byte are stored and not compared, a body byte is stored at its index and summed, CS is stored. -/
def Obligations.AByteOfALongFrame : Prop :=
  ∀ (s : State) (b : Byte) (i : Instr), s.rx.state = .long → i = .rxLongBody b ∨ i = .rxByte b →
    (s.rx.cnt = 1 → exec i s = .next { s with rx := { s.rx with l1 := b, cnt := 2 } })
    ∧ (s.rx.cnt = 2 → exec i s = .next { s with rx := { s.rx with l2 := b, cnt := 3 } })
    ∧ (s.rx.cnt = 3 → exec i s = .next { s with rx := { s.rx with s2 := b, cnt := 4 } })
    ∧ (4 ≤ s.rx.cnt → s.rx.cnt ≤ s.rx.l1.toNat + 3 →
        exec i s = .next
          { s with
            rx := { s.rx with
              body := s.rx.body.write (s.rx.cnt - 4) b, sum := s.rx.sum + b, cnt := s.rx.cnt + 1 } })
    ∧ (4 ≤ s.rx.cnt → s.rx.cnt = s.rx.l1.toNat + 4 →
        exec i s = .next { s with rx := { s.rx with cs := b, cnt := s.rx.cnt + 1 } })

/-- The stop position of a Control or Long frame (40_rx_framer.md R118), with the priority of R119: `L1 = 3` is a Control
frame, a larger one a Long frame whose payload is `rx_body[3 .. rx_L1)`. -/
def Obligations.TheStopOfALongFrame : Prop :=
  ∀ (s : State) (b : Byte) (i : Instr), s.rx.state = .long → s.rx.cnt = s.rx.l1.toNat + 5 →
    i = .rxLongStop b ∨ i = .rxByte b →
    exec i s = .next
      (if s.rx.l2 ≠ s.rx.l1 then errorVerdict s .lengthMismatch (s.rx.l1.toNat + 6) 0
       else if s.rx.s2 ≠ 0x68 then errorVerdict s .lengthMismatch (s.rx.l1.toNat + 6) 0
       else if s.rx.l1.toNat < 3 then errorVerdict s .lengthMismatch (s.rx.l1.toNat + 6) 0
       else if b ≠ 0x16 then errorVerdict s .lengthMismatch (s.rx.l1.toNat + 6) 0
       else if s.rx.cs ≠ s.rx.sum then errorVerdict s .checksumError (s.rx.l1.toNat + 6) 0
       else if s.rx.l1.toNat = 3 then
         goodVerdict s (.control (s.rx.body.read 0) (s.rx.body.read 1) (s.rx.body.read 2)) 9
       else
         goodVerdict s
           (.long (s.rx.body.read 0) (s.rx.body.read 1) (s.rx.body.read 2)
             ((List.range (s.rx.l1.toNat - 3)).map fun k => s.rx.body.read (3 + k)))
           (s.rx.l1.toNat + 6))

/-- `RX_BYTE` is total and emits at most one event (40_rx_framer.md R110): in every state whose sequencing registers are in
their range a byte goes on, adds nothing or one receive event, and leaves those registers in their range. The spec
marks the rule as its own inference. -/
def Obligations.ReceivingIsTotal : Prop :=
  ∀ (s : State) (b : Byte), RxSeqOk s.rx →
    ∃ t, exec (.rxByte b) s = .next t ∧ RxSeqOk t.rx
      ∧ (t.events = s.events ∨ ∃ e, e.fromRx = true ∧ t.events = s.events ++ [e])

/-- A receive byte class row does exactly what the arrival of its byte does, in every state: the model's choice where the
row's condition does not hold (log 7). -/
def Obligations.ClassRowsAreReceivedBytes : Prop :=
  ∀ (i : Instr) (b : Byte) (s : State), i.classByte b → exec i s = exec (.rxByte b) s

/-- Every verdict returns the path to `HUNT` and reports the bytes of its attempt (40_rx_framer.md R121; R120): 1, 5, 9 or
the payload length + 9 for a good frame, 1 for a `FramingError`, 5 or `rx_L1 + 6` for the other errors. The spec marks
the rule as its own inference. -/
def Obligations.BytesConsumedPerOutcome : Prop :=
  ∀ (s t : State) (b : Byte) (e : Event), RxSeqOk s.rx → exec (.rxByte b) s = .next t → t.events = s.events ++ [e] →
    t.rx.state = .hunt ∧ t.rx.cnt = 0 ∧ t.res.consumed = s.rx.cnt + 1
    ∧ (∀ n, e = .frameOk .ack n → n = 1 ∧ t.res.consumed = n)
    ∧ (∀ c a n, e = .frameOk (.short c a) n → n = 5 ∧ t.res.consumed = n)
    ∧ (∀ c a ci n, e = .frameOk (.control c a ci) n → n = 9 ∧ t.res.consumed = n)
    ∧ (∀ c a ci p n, e = .frameOk (.long c a ci p) n → n = p.length + 9 ∧ t.res.consumed = n)
    ∧ (∀ n v, e = .error .framingError n v → n = 1 ∧ v = b ∧ t.res.consumed = n)
    ∧ (∀ k n v, e = .error k n v → k ≠ .framingError → s.rx.state = .short → n = 5 ∧ t.res.consumed = n)
    ∧ (∀ k n v, e = .error k n v → k ≠ .framingError → s.rx.state = .long →
        n = s.rx.l1.toNat + 6 ∧ t.res.consumed = n)

/-- A failed verdict keeps the last good frame (10_state.md R34). -/
def Obligations.AFailedVerdictKeepsTheLastGoodFrame : Prop :=
  ∀ (s t : State) (b : Byte) (k : RxError) (n : Nat) (v : Byte),
    exec (.rxByte b) s = .next t → t.events = s.events ++ [.error k n v] →
    t.res.code ≠ .frameOk ∧ t.res.kind = s.res.kind ∧ t.res.c = s.res.c ∧ t.res.a = s.res.a ∧ t.res.ci = s.res.ci
    ∧ t.res.plen = s.res.plen ∧ t.res.pay = s.res.pay

/-- A received byte is stored to the element of `rx_body` its position names and nowhere else in memory
(40_rx_framer.md R114, R116); `res_pay` changes only by a good Long frame, in the elements of its payload (10_state.md
R35, R36); `tx_pay` does not change. The eight class rows and `RX_BYTE`. -/
def Obligations.WhereAReceivedByteIsStored : Prop :=
  ∀ (i : Instr) (b : Byte) (s t : State), i.classByte b ∨ i = .rxByte b → s.rx.body.wf → s.res.pay.wf →
    exec i s = .next t →
    (∀ a, t.rx.body.read a = if bodyIndex s.rx = some a then b else s.rx.body.read a)
    ∧ (∀ c a ci p n, t.events = s.events ++ [.frameOk (.long c a ci p) n] →
        ∀ k, t.res.pay.read k = if k < p.length then p.getD k 0 else s.res.pay.read k)
    ∧ ((∀ c a ci p n, t.events ≠ s.events ++ [.frameOk (.long c a ci p) n]) →
        ∀ k, t.res.pay.read k = s.res.pay.read k)
    ∧ (∀ k, t.tx.pay.read k = s.tx.pay.read k)

/-- What each kind of instruction leaves unchanged. Receiving touches the receive path and the result registers,
transmitting the transmit path (20_memory.md R70; 41_tx_encoder.md R160), each adding events of its own kind only; the
decoder's functions, the record rows and host reads change nothing but hand back one value (10_state.md R20;
20_memory.md R66; the list of values is the model's, log 4). -/
def Obligations.EachKindTouchesOnlyItsOwn : Prop :=
  ∀ (i : Instr) (s t : State), exec i s = .next t →
    (i.receives = true →
      t.tx = s.tx ∧ t.cfg = s.cfg ∧ t.inputs = s.inputs ∧ t.answers = s.answers ∧ t.freeCount = s.freeCount
      ∧ ∃ es, t.events = s.events ++ es ∧ ∀ e ∈ es, e.fromRx = true)
    ∧ (i.transmits = true →
      t.rx = s.rx ∧ t.res = s.res ∧ t.cfg = s.cfg ∧ t.inputs = s.inputs
      ∧ ((∀ req, i ≠ .encode req) → t.answers = s.answers)
      ∧ ∃ es, t.events = s.events ++ es ∧ ∀ e ∈ es, e.fromRx = false)
    ∧ (i.asks = true → ∃ a, t = { s with answers := s.answers ++ [a] })

/-! ### Frames and byte sequences -/

/-- The arrival of the whole wire image of a frame while the path hunts (`FRAME_ACK`, `FRAME_SHORT`, `FRAME_CONTROL`,
`FRAME_LONG`; 30_encoding.md R80, R84; the row as an arrival is the model's choice, log 10) is one good verdict for that
frame; the body holds its checksummed bytes. A Long frame with no payload is the Control frame of its bytes (R84), and one
with more than 252 bytes has no wire image. -/
def Obligations.AWireImageIsReceivedAsItsFrame : Prop :=
  (∀ (s : State) (f : Frame), CleanRx s → s.rx.body.wf → f.valid = true →
    ∃ rx, exec f.toInstr s = .next { goodVerdict s f (wire f).length with rx := rx }
      ∧ rx.state = .hunt ∧ rx.cnt = 0 ∧ rx.body.wf
      ∧ (f = .ack → rx = s.rx)
      ∧ (∀ c a, f = .short c a → rx.sum = c + a ∧ rx.cs = c + a ∧ rx.body.readRange 0 2 = [c, a])
      ∧ (∀ c a ci, f = .control c a ci →
          rx.sum = c + a + ci ∧ rx.cs = c + a + ci ∧ rx.body.readRange 0 3 = [c, a, ci])
      ∧ (∀ c a ci p, f = .long c a ci p →
          rx.sum = c + a + ci + sum8 p ∧ rx.cs = c + a + ci + sum8 p
          ∧ rx.body.readRange 0 (3 + p.length) = [c, a, ci] ++ p))
  ∧ (∀ (s : State) (c a ci : Byte), exec (.frameLong c a ci []) s = exec (.frameControl c a ci) s)
  ∧ (∀ (s : State) (c a ci : Byte) (p : List Byte), 252 < p.length → exec (.frameLong c a ci p) s = .refused .illFormed)

/-- Every byte sequence has a defined outcome (30_encoding.md R88): from every state whose sequencing registers are in
their range `feed` goes on, with at most one event for each byte; and `feed` is `RX_BYTE` of each byte in order (R102). -/
def Obligations.EveryByteSequenceIsReceived : Prop :=
  (∀ (s : State) (bs : List Byte), RxSeqOk s.rx →
    ∃ t, exec (.feed bs) s = .next t ∧ RxSeqOk t.rx
      ∧ ∃ es, t.events = s.events ++ es ∧ es.length ≤ bs.length ∧ ∀ e ∈ es, e.fromRx = true)
  ∧ (∀ s : State, exec (.feed []) s = .next s)
  ∧ (∀ (s t : State) (b : Byte) (bs : List Byte), exec (.rxByte b) s = .next t →
      exec (.feed (b :: bs)) s = exec (.feed bs) t)

/-- `decode(buf)`, run on the receive state machine, is its closed form (40_rx_framer.md R131) for every buffer and from
every state, and it changes no register. The spec marks the rule as its own inference. -/
def Obligations.DecodeIsItsClosedForm : Prop :=
  ∀ (s : State) (buf : List Byte), HandsBack (.decode buf) s (.decoded (decodeBuf buf))

/-- Round trip (40_rx_framer.md R132): decoding the wire image of a frame gives the frame, whatever bytes follow; a Long
frame with no payload comes back as the Control frame of its bytes. The spec marks the rule as its own inference. -/
def Obligations.DecodingAWireImageGivesTheFrame : Prop :=
  (∀ (s : State) (f : Frame) (t : List Byte), f.valid = true →
    HandsBack (.decode (wire f ++ t)) s (.decoded (.ok f (wire f).length)))
  ∧ (∀ (s : State) (c a ci : Byte) (t : List Byte),
      HandsBack (.decode (wire (.long c a ci []) ++ t)) s (.decoded (.ok (.control c a ci) 9)))

/-- Incomplete prefix (40_rx_framer.md R133): a proper prefix of a wire image, and every buffer shorter than the length it
declares, decodes to `IncompleteFrame`. The spec marks the rule as its own inference. -/
def Obligations.AShortBufferIsIncomplete : Prop :=
  ∀ s : State,
    (∀ (f : Frame) (k : Nat), f.valid = true → k < (wire f).length →
      HandsBack (.decode ((wire f).take k)) s (.decoded .incomplete))
    ∧ (∀ bs : List Byte, bs.length < 4 → HandsBack (.decode (0x10 :: bs)) s (.decoded .incomplete))
    ∧ HandsBack (.decode [0x68]) s (.decoded .incomplete)
    ∧ (∀ (l : Byte) (bs : List Byte), bs.length + 2 < l.toNat + 6 →
        HandsBack (.decode (0x68 :: l :: bs)) s (.decoded .incomplete))

/-- Checksum detection (40_rx_framer.md R134): one changed byte among C, A, CI, the payload and CS of a valid Long frame
decodes to `ChecksumError`; two changed bytes can cancel and pass. The spec marks the rule as its own inference. -/
def Obligations.OneChangedByteIsAChecksumError : Prop :=
  (∀ (s : State) (c a ci : Byte) (p : List Byte) (i : Nat) (v : Byte),
    1 ≤ p.length → p.length ≤ 252 → 4 ≤ i → i ≤ p.length + 7 → v ≠ (wire (.long c a ci p)).getD i 0 →
    HandsBack (.decode ((wire (.long c a ci p)).set i v)) s
      (.decoded (.err .checksumError (wire (.long c a ci p)).length)))
  ∧ (∃ (c a ci : Byte) (p : List Byte) (i j : Nat) (v w : Byte) (f : Frame) (n : Nat),
      4 ≤ i ∧ i < j ∧ j ≤ p.length + 7 ∧ v ≠ (wire (.long c a ci p)).getD i 0 ∧ w ≠ (wire (.long c a ci p)).getD j 0
      ∧ ∀ s : State, HandsBack (.decode (((wire (.long c a ci p)).set i v).set j w)) s (.decoded (.ok f n)))

/-- Prefix stability (40_rx_framer.md R135): bytes after a finished attempt do not change its result, and feeding a buffer
and then more is feeding both at once. The spec marks the rule as its own inference. -/
def Obligations.BytesAfterAFinishedAttemptDoNotMatter : Prop :=
  (∀ (s : State) (buf t : List Byte) (r : DecodeResult), r ≠ .incomplete →
    HandsBack (.decode buf) s (.decoded r) → HandsBack (.decode (buf ++ t)) s (.decoded r))
  ∧ (∀ (s u : State) (buf t : List Byte), exec (.feed buf) s = .next u →
      exec (.feed (buf ++ t)) s = exec (.feed t) u)

/-- Streaming form (40_rx_framer.md R136): the events of feeding a byte stream while the path hunts are those of decoding
it again and again, each time from where the last attempt ended. The spec marks the rule as its own inference. -/
def Obligations.FeedingIsRepeatedDecoding : Prop :=
  ∀ (s : State) (bs : List Byte), CleanRx s → s.rx.body.wf →
    ∃ t, exec (.feed bs) s = .next t ∧ t.events = s.events ++ streamEvents bs.length bs

/-- Receiving has no memory of earlier frames (40_rx_framer.md R130): two blocks that hunt, whatever else their registers
and buffers hold, emit the same events for the same bytes and stand at the same place afterwards. The spec marks the
rule as its own inference. -/
def Obligations.EarlierFramesDoNotInfluenceReception : Prop :=
  ∀ (s s' t t' : State) (bs : List Byte), CleanRx s → CleanRx s' → s.rx.body.wf → s'.rx.body.wf →
    exec (.feed bs) s = .next t → exec (.feed bs) s' = .next t' →
    t.rx.state = t'.rx.state ∧ t.rx.cnt = t'.rx.cnt
    ∧ ∃ es, t.events = s.events ++ es ∧ t'.events = s'.events ++ es

/-- The path returns to `HUNT` after at most 261 bytes (40_rx_framer.md R123): among any 261 bytes received there is one
that ends the attempt in progress with exactly one verdict. The spec marks the rule as its own inference. -/
def Obligations.AVerdictComesWithin261Bytes : Prop :=
  ∀ (s : State) (bs : List Byte), RxSeqOk s.rx → bs.length = 261 →
    ∃ k t, 1 ≤ k ∧ k ≤ 261 ∧ exec (.feed (bs.take k)) s = .next t ∧ t.rx.state = .hunt
      ∧ ∃ e, e.fromRx = true ∧ t.events = s.events ++ [e]

/-! ### Invariants -/

/-- Every step keeps the invariant of the instance: the sequencing registers in their range (40_rx_framer.md R125), the
running sum right, the registers' legal values (10_state.md R32, R41 to R44), `tx_len` the length of the image, and every
buffer in canonical form inside its size. -/
def Obligations.EveryStepKeepsTheInvariant : Prop :=
  ∀ s t : State, Inv s → step s = .next t → Inv t

/-- The reset state satisfies the launch premises `CleanRx`, `CleanTx` and `NoVerdict` (70_reset_and_hazards.md R302), and
the invariant. That `ChannelEmpty` holds too is the model's: its reset lists no input (logs 1, 2 and 22), while R302 makes it
a premise about the environment. The configuration after reset, the default one (log 17), meets the two constraints of
43_dif_vif_rom.md R211 (R301), where what "kWh-class" means is the model's choice (log 21). -/
def Obligations.ResetMeetsTheLaunchPremises : Prop :=
  CleanRx State.reset ∧ CleanTx State.reset ∧ NoVerdict State.reset ∧ ChannelEmpty State.reset ∧ Inv State.reset
  ∧ State.reset.cfg.wf = true

/-- The invariants of the receive path (40_rx_framer.md R125), each kept by every instruction: (a) and (b) the sequencing
registers, (c) the running sum, and (d) the bytes of the frame in progress can be rebuilt from the state: a received byte
without a verdict adds itself to them, and in `HUNT` there are none. The spec marks the rule as its own inference. -/
def Obligations.ReceivePathInvariants : Prop :=
  (∀ (i : Instr) (s t : State), RxSeqOk s.rx → SumOk s.rx → s.rx.body.wf → exec i s = .next t →
    RxSeqOk t.rx ∧ SumOk t.rx)
  ∧ (∀ s : State, s.rx.state = .hunt → rxAccepted s.rx = [])
  ∧ (∀ (s t : State) (b : Byte), RxSeqOk s.rx → s.rx.body.wf → exec (.rxByte b) s = .next t → t.rx.state ≠ .hunt →
      rxAccepted t.rx = rxAccepted s.rx ++ [b])

/-- No input stops the block (60_exceptions.md R282; 30_encoding.md R88): in every state that meets the invariant, an input
the environment can offer takes a next state. What can be offered is log 16. -/
def Obligations.NoOfferedInputStopsTheBlock : Prop :=
  ∀ (s : State) (input : Input) (later : List Input), Inv s → s.inputs = input :: later → offered s input = true →
    ∃ t, step s = .next t

/-- The configuration never changes (44_control_ops.md R256), and the event stream is lossless (60_exceptions.md R270): a
step only adds to it. What was handed back only grows (the model's field, log 4). While the channel is empty (`ChannelEmpty`,
70_reset_and_hazards.md R302) no step adds an event of the receive path, and the channel stays empty: the model's, since all
inputs to come stand in `State.inputs` and no other agent adds one (logs 1 and 22). -/
def Obligations.ConfigurationIsFixedAndEventsAreKept : Prop :=
  (∀ s t : State, step s = .next t →
    t.cfg = s.cfg ∧ (∃ es, t.events = s.events ++ es) ∧ ∃ as, t.answers = s.answers ++ as)
  ∧ (∀ s t : State, ChannelEmpty s → step s = .next t →
    ChannelEmpty t ∧ ∃ es, t.events = s.events ++ es ∧ ∀ e ∈ es, e.fromRx = false)

/-- Instances share nothing (10_state.md R21): a step of one leaves every other as it was, and steps of two commute. -/
def Obligations.InstancesAreIndependent : Prop :=
  (∀ (k j : Nat) (sys sys' : System), stepAt k sys = .next sys' → j ≠ k → sys'[j]? = sys[j]?)
  ∧ (∀ (k : Nat) (sys : System) (s t : State), sys[k]? = some s → step s = .next t →
      stepAt k sys = .next (sys.set k t))
  ∧ (∀ (k j : Nat) (sys a b : System), k ≠ j → stepAt k sys = .next a → stepAt j sys = .next b →
      ∃ c, stepAt j a = .next c ∧ stepAt k b = .next c)

/-- Steps of the receive and of the transmit path commute (20_memory.md R70): any interleaving gives the same final state,
and the same events of each path in the same order. The spec marks the rule as its own inference. -/
def Obligations.ReceiveAndTransmitStepsCommute : Prop :=
  ∀ (i j : Instr) (s a b c : State), (∃ x, i = .rxByte x) ∨ i = .rxFlush → (∃ req, j = .txStart req) ∨ j = .txStep →
    exec i s = .next a → exec j a = .next b → exec j s = .next c →
    ∃ d, exec i c = .next d ∧ d = { b with events := d.events }
      ∧ d.events.filter (·.fromRx) = b.events.filter (·.fromRx)
      ∧ d.events.filter (!·.fromRx) = b.events.filter (!·.fromRx)

/-! ### The transmit path -/

/-- `TX_START` in `IDLE` with a frame that can be encoded (41_tx_encoder.md R153): the descriptor is loaded, no byte and no
event is emitted. `tx_sum` becomes any value (10_state.md R46, log 9). -/
def Obligations.TxStartLoadsTheFrame : Prop :=
  ∀ (s : State) (req : TxReq) (w : List Byte), s.tx.state = .idle → encodeReq req = some w →
    ∃ x k,
      exec (.txStart req) s = .next
        { s with
          tx :=
            { state := .sending, pos := 0, kind := req.kind
              c := if req.kind = .ack then 0 else req.c
              a := if req.kind = .ack then 0 else req.a
              ci := if req.kind = .ack ∨ req.kind = .short then 0 else req.ci
              plen := if req.kind = .long then req.payload.length else 0
              pay := if req.kind = .long then s.tx.pay.writeRange 0 req.payload else s.tx.pay
              len := w.length, code := .frameOk, sum := x }
          freeCount := k }
      ∧ (s.tx.pay.wf → ∀ a,
          (if req.kind = .long then s.tx.pay.writeRange 0 req.payload else s.tx.pay).read a
            = if req.kind = .long ∧ a < req.payload.length then req.payload.getD a 0 else s.tx.pay.read a)

/-- `TX_START` not accepted (41_tx_encoder.md R155): busy is tested first; `tx_code` is written and one event emitted. -/
def Obligations.TxStartIsRejected : Prop :=
  ∀ (s : State) (req : TxReq),
    (s.tx.state = .sending →
      exec (.txStart req) s = .next
        { s with tx := { s.tx with code := .txBusy }, events := s.events ++ [.txRejected .txBusy] })
    ∧ (s.tx.state = .idle → req.kind = .long → 252 < req.payload.length →
      exec (.txStart req) s = .next
        { s with tx := { s.tx with code := .invalidFrame }, events := s.events ++ [.txRejected .invalidFrame] })

/-- `TX_STEP` (41_tx_encoder.md R156, R157): in `SENDING` it emits byte `tx_pos` of the image and, with the last, `TxDone`
and returns to `IDLE`; in `IDLE` it does nothing. `tx_sum` becomes any value (10_state.md R46, log 9). -/
def Obligations.TxStepEmitsTheNextByte : Prop :=
  (∀ s : State, TxOk s.tx → s.tx.state = .sending →
    ∃ b x k, (txImage s.tx)[s.tx.pos]? = some b
      ∧ exec .txStep s = .next
          (if s.tx.pos + 1 = s.tx.len then
            { s with
              tx := { s.tx with state := .idle, pos := 0, sum := x }
              events := s.events ++ [.txByte b, .txDone], freeCount := k }
           else
            { s with
              tx := { s.tx with pos := s.tx.pos + 1, sum := x }
              events := s.events ++ [.txByte b], freeCount := k }))
  ∧ (∀ s : State, s.tx.state = .idle → exec .txStep s = .next s)

/-- The image of the frame being sent is constant while it is sent (41_tx_encoder.md R154): only `RESET` changes the
descriptor in `SENDING`; an accepted request's image is its wire image, `tx_len` its length, and `TX_START` writes no
element of `TXPAY` above 251. The spec marks the rule as its own inference. -/
def Obligations.TheImageIsConstantWhileSending : Prop :=
  (∀ (i : Instr) (s t : State), s.tx.state = .sending → i ≠ .reset → exec i s = .next t →
    t.tx.kind = s.tx.kind ∧ t.tx.c = s.tx.c ∧ t.tx.a = s.tx.a ∧ t.tx.ci = s.tx.ci ∧ t.tx.plen = s.tx.plen
    ∧ t.tx.pay = s.tx.pay ∧ t.tx.len = s.tx.len ∧ txImage t.tx = txImage s.tx)
  ∧ (∀ (s t : State) (req : TxReq), s.tx.pay.wf → s.tx.state = .idle → exec (.txStart req) s = .next t →
      t.tx.state = .sending →
      encodeReq req = some (txImage t.tx) ∧ t.tx.len = (txImage t.tx).length
      ∧ ∀ a, 252 ≤ a → t.tx.pay.read a = s.tx.pay.read a)

/-- `encode(req)` and `send(req)` from `IDLE` (41_tx_encoder.md R158): the bytes of the wire image, in order, then `TxDone`;
for an invalid frame no byte. `encode` collects the bytes (the events of its own `TX_STEP`s are emitted all the same,
log 14). The spec marks the rule as its own inference. -/
def Obligations.SendEmitsTheWireImage : Prop :=
  ∀ (s : State) (req : TxReq), CleanTx s → s.tx.pay.wf →
    (∀ w, encodeReq req = some w →
      ∃ t, exec (.send req) s = .next t
        ∧ t.events = s.events ++ w.map .txByte ++ [.txDone]
        ∧ t.tx =
            { state := .idle, pos := 0, kind := req.kind
              c := if req.kind = .ack then 0 else req.c
              a := if req.kind = .ack then 0 else req.a
              ci := if req.kind = .ack ∨ req.kind = .short then 0 else req.ci
              plen := if req.kind = .long then req.payload.length else 0
              pay := if req.kind = .long then s.tx.pay.writeRange 0 req.payload else s.tx.pay
              len := w.length, code := .frameOk, sum := t.tx.sum }
        ∧ t = { s with tx := t.tx, events := t.events, freeCount := t.freeCount }
        ∧ exec (.encode req) s = .next { t with answers := s.answers ++ [.encoded (.ok w)] })
    ∧ (encodeReq req = none →
      exec (.send req) s = .next
        { s with tx := { s.tx with code := .invalidFrame }, events := s.events ++ [.txRejected .invalidFrame] }
      ∧ exec (.encode req) s = .next
        { s with
          tx := { s.tx with code := .invalidFrame }, events := s.events ++ [.txRejected .invalidFrame]
          answers := s.answers ++ [.encoded (.err .invalidFrame)] })

/-- `encode(req)` and `send(req)` while a frame is being sent, by their expansion (30_encoding.md R102; the reading of the
busy case is the model's, log 14): the request is rejected as busy, the `tx_len` `TX_STEP`s finish the frame in progress,
and `encode` reports `TxBusy`. -/
def Obligations.SendWhileBusyFinishesTheFrameInProgress : Prop :=
  ∀ (s : State) (req : TxReq), TxOk s.tx → s.tx.state = .sending →
    ∃ t, exec (.send req) s = .next t
      ∧ t.events =
          s.events ++ [.txRejected .txBusy] ++ ((txImage s.tx).drop s.tx.pos).map .txByte ++ [.txDone]
      ∧ t.tx = { s.tx with state := .idle, pos := 0, code := .txBusy, sum := t.tx.sum }
      ∧ t = { s with tx := t.tx, events := t.events, freeCount := t.freeCount }
      ∧ exec (.encode req) s = .next { t with answers := s.answers ++ [.encoded (.err .txBusy)] }

/-- The result of `encode` (41_tx_encoder.md R151): its length, its delimiters, its length bytes, its checksum, and the
bytes of the request unaltered in between. The spec marks the rule as its own inference. -/
def Obligations.TheShapeOfAWireImage : Prop :=
  ∀ (req : TxReq) (w : List Byte), encodeReq req = some w →
    (req.kind = .ack → w = [0xE5])
    ∧ (req.kind = .short → w = [0x10, req.c, req.a, req.c + req.a, 0x16])
    ∧ (req.kind = .control →
        w.length = 9 ∧ w.take 7 = [0x68, 0x03, 0x03, 0x68, req.c, req.a, req.ci]
        ∧ w.drop 7 = [sum8 [req.c, req.a, req.ci], 0x16])
    ∧ (req.kind = .long →
        w.length = 9 + req.payload.length ∧ w.length ≤ 261 ∧ w.getD 0 0 = 0x68 ∧ w.getD 3 0 = 0x68
        ∧ (w.getD 1 0).toNat = 3 + req.payload.length ∧ (w.getD 2 0).toNat = 3 + req.payload.length
        ∧ (w.drop 4).take (3 + req.payload.length) = [req.c, req.a, req.ci] ++ req.payload
        ∧ w.drop (7 + req.payload.length) = [sum8 ([req.c, req.a, req.ci] ++ req.payload), 0x16])

/-! ### Control operations -/

/-- `RESET` (44_control_ops.md R250): every register and buffer takes its reset value, in every state; no event is
emitted, and the configuration and what is still to come stay. -/
def Obligations.ResetGivesTheResetValues : Prop :=
  ∀ s : State,
    exec .reset s = .next
      { s with
        rx := { state := .hunt, cnt := 0, l1 := 0, l2 := 0, s2 := 0, sum := 0, cs := 0, body := [] }
        res :=
          { code := .none, kind := .ack, c := 0, a := 0, ci := 0, plen := 0, pay := [], consumed := 0, byte := 0 }
        tx :=
          { state := .idle, pos := 0, kind := .ack, c := 0, a := 0, ci := 0, plen := 0, pay := [], len := 0
            code := .none, sum := 0 } }
    ∧ ∀ a, Memory.read [] a = 0

/-- `RX_FLUSH` (44_control_ops.md R252): the frame in progress is abandoned without event, verdict or error, and everything
else keeps its value; in `HUNT` at most `rx_sum` changes. -/
def Obligations.RxFlushAbandonsTheFrame : Prop :=
  (∀ s : State, exec .rxFlush s = .next { s with rx := { s.rx with state := .hunt, cnt := 0, sum := 0 } })
  ∧ (∀ s : State, RxSeqOk s.rx → s.rx.state = .hunt → exec .rxFlush s = .next { s with rx := { s.rx with sum := 0 } })
  ∧ (∀ s t : State, exec .rxFlush s = .next t → exec (.rxByte 0xE5) t = .next (goodVerdict t .ack 1))

/-- A host read returns the current value of a register, a status bit or a buffer and changes nothing
(44_control_ops.md R254). The encodings are those of 10_state.md R22, R32, R40 and 60_exceptions.md R271. -/
def Obligations.HostReadsReturnTheCurrentValue : Prop :=
  ∀ s : State,
    (∀ q ∈
      ([(.rxCnt, s.rx.cnt), (.rxL1, s.rx.l1.toNat), (.rxL2, s.rx.l2.toNat), (.rxS2, s.rx.s2.toNat),
        (.rxSum, s.rx.sum.toNat), (.rxCs, s.rx.cs.toNat), (.resC, s.res.c.toNat), (.resA, s.res.a.toNat),
        (.resCI, s.res.ci.toNat), (.resPlen, s.res.plen), (.resConsumed, s.res.consumed), (.resByte, s.res.byte.toNat),
        (.txPos, s.tx.pos), (.txC, s.tx.c.toNat), (.txA, s.tx.a.toNat), (.txCI, s.tx.ci.toNat), (.txPlen, s.tx.plen),
        (.txLen, s.tx.len), (.txSum, s.tx.sum.toNat)] : List (Reg × Nat)),
      HandsBack (.hostRead q.1) s (.reg q.2))
    ∧ (∀ q ∈ ([(.hunt, 0, 0), (.short, 1, 1), (.long, 2, 1)] : List (RxState × Nat × Nat)),
        s.rx.state = q.1 →
        HandsBack (.hostRead .rxState) s (.reg q.2.1) ∧ HandsBack (.hostRead .rxBusy) s (.reg q.2.2))
    ∧ (∀ q ∈ ([(.idle, 0), (.sending, 1)] : List (TxState × Nat)),
        s.tx.state = q.1 →
        HandsBack (.hostRead .txState) s (.reg q.2) ∧ HandsBack (.hostRead .txBusy) s (.reg q.2))
    ∧ (∀ q ∈ ([(.ack, 0), (.short, 1), (.control, 2), (.long, 3)] : List (FrameKind × Nat)),
        (s.res.kind = q.1 → HandsBack (.hostRead .resKind) s (.reg q.2))
        ∧ (s.tx.kind = q.1 → HandsBack (.hostRead .txKind) s (.reg q.2)))
    ∧ (∀ q ∈
        ([(.none, 0), (.frameOk, 1), (.framingError, 2), (.incompleteFrame, 3), (.lengthMismatch, 4), (.checksumError, 5),
          (.invalidFrame, 6), (.malformedRecord, 7), (.refused, 8), (.txBusy, 10)] : List (Code × Nat)),
        (s.res.code = q.1 → HandsBack (.hostRead .resCode) s (.reg q.2))
        ∧ (s.tx.code = q.1 → HandsBack (.hostRead .txCode) s (.reg q.2)))
    ∧ (∀ addr n, addr + n ≤ 255 →
        HandsBack (.hostRead (.buffer .rxBody addr n)) s
          (.bytes ((List.range n).map fun k => s.rx.body.read (addr + k))))
    ∧ (∀ addr n, addr + n ≤ 252 →
        HandsBack (.hostRead (.buffer .resPay addr n)) s
          (.bytes ((List.range n).map fun k => s.res.pay.read (addr + k)))
        ∧ HandsBack (.hostRead (.buffer .txPay addr n)) s
          (.bytes ((List.range n).map fun k => s.tx.pay.read (addr + k))))

/-! ### Record headers and scans -/

/-- `REC_HEADER` on a whole record (42_record_scan.md R172): a DIF whose layout is not `Special`, a DIFE chain, a VIF that
is no plain text, a VIFE chain and data of the layout's length give the `Record` item of exactly those bytes. The spec
marks part of the rule as general knowledge. -/
def Obligations.AWholeRecordIsARecordItem : Prop :=
  ∀ (s : State) (pre difes vifes data rest : List Byte) (dif vif : Byte),
    difLookup s.cfg (dataCode dif) ≠ .special → chainForm dif difes = true → difes.length ≤ s.cfg.maxDife →
    vifEntry s.cfg (valueCode vif) ≠ .plainText → chainForm vif vifes = true → vifes.length ≤ s.cfg.maxVife →
    dataFits (difLookup s.cfg (dataCode dif)) data = true →
    HandsBack (.recHeader (pre ++ (dif :: difes ++ (vif :: vifes ++ (data ++ rest)))) pre.length) s
      (.header (.item (.record
        { start := pre.length
          stop := pre.length + (2 + difes.length + vifes.length) + data.length
          dif := dif, difes := difes, vif := vif, vifes := vifes
          dataOff := pre.length + (2 + difes.length + vifes.length), dataLen := data.length })))

/-- Where `REC_HEADER` stops (42_record_scan.md R172 to R175): a chain, the VIF, the LVAR byte or the data past the end of
the payload is `Malformed`; a chain of more than `MAX_DIFE` or `MAX_VIFE` bytes, a plain-text VIF and an LVAR of 0xC0 or
more are `Refused`, each with the index the record began at. An index outside the payload is no operand (log 16). The
spec marks part of the rule as general knowledge. -/
def Obligations.WhereARecordHeaderStops : Prop :=
  (∀ (s : State) (p : List Byte) (i : Nat), p.length ≤ i → exec (.recHeader p i) s = .refused .illFormed)
  ∧ ∀ (s : State) (pre : List Byte) (dif : Byte), difLookup s.cfg (dataCode dif) ≠ .special →
    (∀ tail, topBit dif = true → (∀ b ∈ tail, topBit b = true) → tail.length ≤ s.cfg.maxDife →
      HandsBack (.recHeader (pre ++ dif :: tail) pre.length) s (.header (.item (.malformed pre.length))))
    ∧ (∀ tail, topBit dif = true → s.cfg.maxDife < tail.length → (∀ b ∈ tail.take s.cfg.maxDife, topBit b = true) →
      HandsBack (.recHeader (pre ++ dif :: tail) pre.length) s (.header (.item (.refused pre.length .chainTooLong))))
    ∧ ∀ difes, chainForm dif difes = true → difes.length ≤ s.cfg.maxDife →
      HandsBack (.recHeader (pre ++ dif :: difes) pre.length) s (.header (.item (.malformed pre.length)))
      ∧ (∀ vif rest, vifEntry s.cfg (valueCode vif) = .plainText →
          HandsBack (.recHeader (pre ++ (dif :: difes ++ vif :: rest)) pre.length) s
            (.header (.item (.refused pre.length .plainTextVif))))
      ∧ ∀ vif, vifEntry s.cfg (valueCode vif) ≠ .plainText →
        (∀ rest, topBit vif = true → (∀ b ∈ rest, topBit b = true) → rest.length ≤ s.cfg.maxVife →
          HandsBack (.recHeader (pre ++ (dif :: difes ++ vif :: rest)) pre.length) s
            (.header (.item (.malformed pre.length))))
        ∧ (∀ rest, topBit vif = true → s.cfg.maxVife < rest.length → (∀ b ∈ rest.take s.cfg.maxVife, topBit b = true) →
          HandsBack (.recHeader (pre ++ (dif :: difes ++ vif :: rest)) pre.length) s
            (.header (.item (.refused pre.length .chainTooLong))))
        ∧ ∀ vifes, chainForm vif vifes = true → vifes.length ≤ s.cfg.maxVife →
          (∀ n rest, dataBytesOf (difLookup s.cfg (dataCode dif)) = .fixed n → rest.length < n →
            HandsBack (.recHeader (pre ++ (dif :: difes ++ (vif :: vifes ++ rest))) pre.length) s
              (.header (.item (.malformed pre.length))))
          ∧ (difLookup s.cfg (dataCode dif) = .varLen →
            HandsBack (.recHeader (pre ++ (dif :: difes ++ vif :: vifes)) pre.length) s
              (.header (.item (.malformed pre.length)))
            ∧ (∀ (lvar : Byte) (text : List Byte), 0xC0 ≤ lvar.toNat →
              HandsBack (.recHeader (pre ++ (dif :: difes ++ (vif :: vifes ++ lvar :: text))) pre.length) s
                (.header (.item (.refused pre.length .lvarReserved))))
            ∧ (∀ (lvar : Byte) (text : List Byte), lvar.toNat < 0xC0 → text.length < lvar.toNat →
              HandsBack (.recHeader (pre ++ (dif :: difes ++ (vif :: vifes ++ lvar :: text))) pre.length) s
                (.header (.item (.malformed pre.length)))))

/-- Special DIF bytes (42_record_scan.md R176), where the configured layout of the DIF's data-field code is `Special`: 0x2F is
a filler, 0x0F and 0x1F give the rest of the payload as manufacturer data, and any other is refused; the four
`dif-special` rows hand back the same for a payload that begins with their byte (log 12). The spec marks part of the
rule as general knowledge. -/
def Obligations.SpecialDifBytes : Prop :=
  (∀ (s : State) (pre tail : List Byte) (dif : Byte), difLookup s.cfg (dataCode dif) = .special →
    HandsBack (.recHeader (pre ++ dif :: tail) pre.length) s
      (.header
        (if dif = 0x2F then .filler
         else if dif = 0x0F then .item (.mfrTail pre.length (pre ++ dif :: tail).length false)
         else if dif = 0x1F then .item (.mfrTail pre.length (pre ++ dif :: tail).length true)
         else .item (.refused pre.length .specialDif))))
  ∧ (∀ (s : State) (tail : List Byte) (b : Byte), difLookup s.cfg 0xF = .special →
      HandsBack (.difMfrTail tail) s (.header (.item (.mfrTail 0 (tail.length + 1) false)))
      ∧ HandsBack (.difMfrTailMore tail) s (.header (.item (.mfrTail 0 (tail.length + 1) true)))
      ∧ HandsBack .difFiller s (.header .filler)
      ∧ ((Instr.difSpecialOther b).wf = true →
          HandsBack (.difSpecialOther b) s (.header (.item (.refused 0 .specialDif)))))
  ∧ (∀ (s : State) (tail : List Byte) (b : Byte),
      exec (.difMfrTail tail) s = exec (.recHeader (0x0F :: tail) 0) s
      ∧ exec (.difMfrTailMore tail) s = exec (.recHeader (0x1F :: tail) 0) s
      ∧ exec .difFiller s = exec (.recHeader [0x2F] 0) s
      ∧ exec (.difSpecialOther b) s = exec (.recHeader [b] 0) s)

/-- `REC_SCAN` is the loop of 42_record_scan.md R177: an offset past the payload is refused; elsewhere the items are the
one list the loop gives. -/
def Obligations.RecScanIsItsLoop : Prop :=
  ∀ (s : State) (p : List Byte) (off : Nat),
    (p.length < off → HandsBack (.recScan p off) s (.items [.refused off .badOffset]))
    ∧ (off ≤ p.length →
      ∃ items, Scans s.cfg p off items ∧ HandsBack (.recScan p off) s (.items items)
        ∧ ∀ other, Scans s.cfg p off other → other = items)

/-- The properties of a scan (42_record_scan.md R180 (a) to (d)): starts rise; records lie in the payload, in order and
apart, and what they leave out before the end, or before the final item that is no record, are exactly fillers; at most
the last item is no record; and each record has the form its fields say. The spec marks the rule as its own inference. -/
def Obligations.ScanItemsTileThePayload : Prop :=
  ∀ (s : State) (p : List Byte) (off : Nat), off ≤ p.length →
    ∃ items, HandsBack (.recScan p off) s (.items items)
      ∧ (items.map Item.start).Pairwise (· < ·)
      ∧ (recordsOf items).Pairwise (fun a b => a.stop ≤ b.start)
      ∧ (∀ r ∈ recordsOf items, off ≤ r.start ∧ r.lies p = true)
      ∧ (∀ item ∈ items.dropLast, ∃ r, item = .record r)
      ∧ ∃ e, e ≤ p.length
        ∧ (items = [] → e = p.length) ∧ (∀ r, items.getLast? = some (.record r) → e = p.length)
        ∧ (∀ item, items.getLast? = some item → (∀ r, item ≠ .record r) → e = item.start)
        ∧ (∀ r ∈ recordsOf items, r.stop ≤ e)
        ∧ ∀ j, off ≤ j → j < e → (∀ r ∈ recordsOf items, ¬(r.start ≤ j ∧ j < r.stop)) →
            p.getD j 0 = 0x2F ∧ recHeader s.cfg p j = some .filler

/-- What a scan depends on (42_record_scan.md R180 (e)): the payload from the offset on, `DIF_ROM`, which entries of
`VIF_ROM` are plain text, `MAX_DIFE` and `MAX_VIFE`, and nothing else. The spec marks the rule as its own inference. -/
def Obligations.WhatAScanDependsOn : Prop :=
  ∀ (s s' : State) (p p' : List Byte) (off : Nat) (items items' : List Item),
    off ≤ p.length → off ≤ p'.length → p.drop off = p'.drop off →
    s.cfg.difRom = s'.cfg.difRom → (∀ code, vifEntry s.cfg code = .plainText ↔ vifEntry s'.cfg code = .plainText) →
    s.cfg.maxDife = s'.cfg.maxDife → s.cfg.maxVife = s'.cfg.maxVife →
    HandsBack (.recScan p off) s (.items items) → HandsBack (.recScan p' off) s' (.items items') → items = items'

/-! ### Readings -/

/-- `REC_DECODE` on a record item (43_dif_vif_rom.md R230) and on a whole payload (R231): every record item of a scan is
the item of its own header, decodes to the reading of its fields, is never refused, and a payload's readings are those of
its records in wire order, followed by the final item that is no record. The spec marks R231 as its own inference. -/
def Obligations.RecordItemsDecodeToReadings : Prop :=
  (∀ (s : State) (p : List Byte) (r : Record), recHeader s.cfg p r.start = some (.item (.record r)) →
    vifLookup s.cfg r.vif r.vifes ≠ .refusedPlainText
    ∧ ∃ v, extract s.cfg (difLookup s.cfg (dataCode r.dif)) ((p.drop r.dataOff).take r.dataLen) = some v
      ∧ HandsBack (.recDecode p r) s
          (.reading
            { tag := vifLookup s.cfg r.vif r.vifes, value := v
              storage := (difeAcc r.dif r.difes).storage, tariff := (difeAcc r.dif r.difes).tariff
              subunit := (difeAcc r.dif r.difes).subunit, function := (difFieldsOfByte r.dif).func
              vif := r.vif, vifes := r.vifes, raw := (p.drop r.dataOff).take r.dataLen }))
  ∧ (∀ (cfg : Config) (p : List Byte) (off : Nat),
      (∀ r ∈ recordsOf (recScan cfg p off), recHeader cfg p r.start = some (.item (.record r)))
      ∧ (decodePayload cfg p off).1 = (recordsOf (recScan cfg p off)).filterMap (recDecode cfg p)
      ∧ (decodePayload cfg p off).1.length = (recordsOf (recScan cfg p off)).length
      ∧ ∀ item, (decodePayload cfg p off).2 = some item ↔
          (recScan cfg p off).getLast? = some item ∧ ∀ r, item ≠ .record r)

/-- `VIF_LOOKUP` (43_dif_vif_rom.md R212), for every configuration. -/
def Obligations.VifLookupResolvesOrSaysWhy : Prop :=
  ∀ (s : State) (vif : Byte) (vifes : List Byte),
    (∀ q u sc, vifEntry s.cfg (valueCode vif) = .known q u sc →
      (vifes = [] → HandsBack (.vifLookup vif vifes) s (.vif (.resolved q u sc)))
      ∧ (vifes ≠ [] →
        (∀ q2 u2 s2, vifeEntry s.cfg vif vifes = some (.known q2 u2 s2) →
          HandsBack (.vifLookup vif vifes) s (.vif (.resolved q2 u2 s2)))
        ∧ ((∀ q2 u2 s2, vifeEntry s.cfg vif vifes ≠ some (.known q2 u2 s2)) →
          HandsBack (.vifLookup vif vifes) s (.vif (.unknown .unresolvedVife)))))
    ∧ (∀ x, vifEntry s.cfg (valueCode vif) = .extTable x →
      (topBit vif = false → HandsBack (.vifLookup vif vifes) s (.vif (.unknown .reservedVif)))
      ∧ (topBit vif = true →
        (∀ q2 u2 s2, vifeEntry s.cfg vif vifes = some (.known q2 u2 s2) →
          HandsBack (.vifLookup vif vifes) s (.vif (.resolved q2 u2 s2)))
        ∧ ((∀ q2 u2 s2, vifeEntry s.cfg vif vifes ≠ some (.known q2 u2 s2)) →
          HandsBack (.vifLookup vif vifes) s (.vif (.unknown .extensionUnresolved)))))
    ∧ (vifEntry s.cfg (valueCode vif) = .reserved → HandsBack (.vifLookup vif vifes) s (.vif (.unknown .reservedVif)))
    ∧ (vifEntry s.cfg (valueCode vif) = .anyVif → HandsBack (.vifLookup vif vifes) s (.vif (.unknown .anyVif)))
    ∧ (vifEntry s.cfg (valueCode vif) = .mfrSpecific →
        HandsBack (.vifLookup vif vifes) s (.vif (.unknown .manufacturerSpecific)))
    ∧ (vifEntry s.cfg (valueCode vif) = .plainText → HandsBack (.vifLookup vif vifes) s (.vif .refusedPlainText))

/-- `DIF_FIELDS` (43_dif_vif_rom.md R203): bit 7, bit 6, the function of bits 5 and 4, and bits 3 to 0. -/
def Obligations.DifFieldsAreTheBitsOfTheByte : Prop :=
  ∀ (s : State) (b : Byte),
    ∃ f : DifFields, HandsBack (.difFields b) s (.difFields f)
      ∧ f.ext.toNat = bit b 7 ∧ f.st0.toNat = bit b 6 ∧ f.data.toNat = bits b 3 0
      ∧ (bits b 5 4, f.func)
          ∈ ([(0, .instantaneous), (1, .maximum), (2, .minimum), (3, .error)] : List (Nat × Func))

/-- The record byte rows `DIF`, `DIFE`, `VIF`, `VIFE`, `LVAR` and the four DIF function rows hand back what their byte says
(30_encoding.md R91 to R94, R99; 43_dif_vif_rom.md R203; that they hand it back is the model's, log 12). -/
def Obligations.RecordByteRowsHandBackTheirFields : Prop :=
  ∀ (s : State) (b : Byte),
    (∀ e g f d, encode (.dif e g f d) = some (.dif, [b]) →
      ∃ r : DifFields, HandsBack (.dif e g f d) s (.difFields r)
        ∧ r.ext.toNat = bit b 7 ∧ r.st0.toNat = bit b 6 ∧ r.data.toNat = bits b 3 0
        ∧ (bits b 5 4, r.func)
            ∈ ([(0, .instantaneous), (1, .maximum), (2, .minimum), (3, .error)] : List (Nat × Func)))
    ∧ (∀ e u t n, encode (.dife e u t n) = some (.dife, [b]) →
        ∃ r : DifeFields, HandsBack (.dife e u t n) s (.difeFields r)
          ∧ r.ext.toNat = bit b 7 ∧ r.unit.toNat = bit b 6 ∧ r.tar.toNat = bits b 5 4 ∧ r.stor.toNat = bits b 3 0)
    ∧ (∀ e c, encode (.vif e c) = some (.vif, [b]) →
        ∃ r : VifFields, HandsBack (.vif e c) s (.vifFields r) ∧ r.ext.toNat = bit b 7 ∧ r.code.toNat = bits b 6 0)
    ∧ (∀ e c, encode (.vife e c) = some (.vife, [b]) →
        ∃ r : VifFields, HandsBack (.vife e c) s (.vifFields r) ∧ r.ext.toNat = bit b 7 ∧ r.code.toNat = bits b 6 0)
    ∧ HandsBack (.lvar b) s (.lvar (if b.toNat ≤ 0xBF then .text b.toNat else .reserved))
    ∧ (∀ e g d, encode (.difFuncInstantaneous e g d) = some (.difFunction, [b]) →
        HandsBack (.difFuncInstantaneous e g d) s (.func .instantaneous) ∧ bits b 5 4 = 0)
    ∧ (∀ e g d, encode (.difFuncMaximum e g d) = some (.difFunction, [b]) →
        HandsBack (.difFuncMaximum e g d) s (.func .maximum) ∧ bits b 5 4 = 1)
    ∧ (∀ e g d, encode (.difFuncMinimum e g d) = some (.difFunction, [b]) →
        HandsBack (.difFuncMinimum e g d) s (.func .minimum) ∧ bits b 5 4 = 2)
    ∧ (∀ e g d, encode (.difFuncError e g d) = some (.difFunction, [b]) →
        HandsBack (.difFuncError e g d) s (.func .error) ∧ bits b 5 4 = 3)

/-- `DIFE_ACC` is the closed sum of 30_encoding.md R95, with its bounds for chains of at most 10 bytes. The spec marks
part of the rule as general knowledge. -/
def Obligations.DifeAccIsTheClosedSum : Prop :=
  ∀ (s : State) (dif : Byte) (difes : List Byte),
    ∃ acc : Acc, HandsBack (.difeAcc dif difes) s (.acc acc)
      ∧ acc.storage =
          bit dif 6 + ((List.range difes.length).map fun k => bits (difes.getD k 0) 3 0 <<< (1 + 4 * k)).sum
      ∧ acc.tariff = ((List.range difes.length).map fun k => bits (difes.getD k 0) 5 4 <<< (2 * k)).sum
      ∧ acc.subunit = ((List.range difes.length).map fun k => bit (difes.getD k 0) 6 <<< k).sum
      ∧ (difes.length ≤ 10 → acc.storage < 2 ^ 41 ∧ acc.tariff < 2 ^ 20 ∧ acc.subunit < 2 ^ 10)

/-- Binary integers (43_dif_vif_rom.md R222): where the field is no sentinel, `EXTRACT` gives the two's complement value of
the little-endian bytes. The signed reading is the spec's general knowledge. -/
def Obligations.IntegersAreLittleEndianTwosComplement : Prop :=
  ∀ (s : State) (k : IntWidth) (d : List Byte), d.length = intBytes k →
    isNoValue (sentinelsOf s.cfg (.int k)) d = false →
    ∃ v : Int, HandsBack (.extract (.int k) d) s (.value (.num v))
      ∧ -(2 : Int) ^ (8 * intBytes k - 1) ≤ v ∧ v < (2 : Int) ^ (8 * intBytes k - 1)
      ∧ v % (2 : Int) ^ (8 * intBytes k)
          = (((List.range d.length).map fun j => (d.getD j 0).toNat * 256 ^ j).sum : Nat)

/-- The no-value sentinel (43_dif_vif_rom.md R221): `NoValue` exactly for a non-empty field of all 0xFF or all 0x7F where
the layout has that sentinel, tested before any numeric reading; the default has both for `Int`, `Bcd` and `Real32` and
none for the rest. -/
def Obligations.NoValueOnlyForSentinelFields : Prop :=
  (∀ (s : State) (layout : Layout) (d : List Byte),
    (∃ k, layout = .int k) ∨ (∃ n, layout = .bcd n) ∨ layout = .real32 →
    (HandsBack (.extract layout d) s (.value .noValue) ↔
      d ≠ [] ∧ (((sentinelsOf s.cfg layout).ff = true ∧ ∀ b ∈ d, b = 0xFF)
        ∨ ((sentinelsOf s.cfg layout).x7f = true ∧ ∀ b ∈ d, b = 0x7F))))
  ∧ (∀ (s : State) (layout : Layout) (d : List Byte), HandsBack (.extract layout d) s (.value .noValue) →
      d ≠ [] ∧ ((∀ b ∈ d, b = 0xFF) ∨ ∀ b ∈ d, b = 0x7F))
  ∧ (∀ cfg : Config, cfg.noValue = [] →
      (∀ k, sentinelsOf cfg (.int k) = ⟨true, true⟩) ∧ (∀ n, sentinelsOf cfg (.bcd n) = ⟨true, true⟩)
      ∧ sentinelsOf cfg .real32 = ⟨true, true⟩ ∧ sentinelsOf cfg .noData = ⟨false, false⟩
      ∧ sentinelsOf cfg .selection = ⟨false, false⟩ ∧ sentinelsOf cfg .varLen = ⟨false, false⟩
      ∧ sentinelsOf cfg .special = ⟨false, false⟩)

/-- BCD (43_dif_vif_rom.md R223): where the field is no sentinel, a nibble above 9 gives `BadBcd`, and otherwise the digits
give their number, which is below `10^n`. The byte and nibble order are the spec's general knowledge. -/
def Obligations.BcdDigitsGiveTheirNumber : Prop :=
  ∀ (s : State) (n : Nat) (d : List Byte), n % 2 = 0 → d.length = n / 2 →
    isNoValue (sentinelsOf s.cfg (.bcd n)) d = false →
    ((∃ b ∈ d, 9 < bits b 7 4 ∨ 9 < bits b 3 0) → HandsBack (.extract (.bcd n) d) s (.value .badBcd))
    ∧ ((∀ b ∈ d, bits b 7 4 ≤ 9 ∧ bits b 3 0 ≤ 9) →
      ∃ raw : Nat, HandsBack (.extract (.bcd n) d) s (.value (.num raw)) ∧ raw < 10 ^ n
        ∧ raw = ((List.range d.length).map fun i => (bits (d.getD i 0) 7 4 * 10 + bits (d.getD i 0) 3 0) * 100 ^ i).sum)

/-- Text, empty values and reals (43_dif_vif_rom.md R224, R225, R226): text is the bytes after LVAR in wire order, `NoData`
and `Selection` give `Empty`, and a real is delivered as its 32-bit pattern, least significant byte first, whatever the
pattern (a real field that is a sentinel is `NoValue`, R221). `Special` never reaches `EXTRACT` (log 16). -/
def Obligations.TextEmptyAndRealValues : Prop :=
  (∀ (s : State) (lvar : Byte) (text : List Byte), HandsBack (.extract .varLen (lvar :: text)) s (.value (.text text)))
  ∧ (∀ s : State, HandsBack (.extract .noData []) s (.value .empty)
      ∧ HandsBack (.extract .selection []) s (.value .empty))
  ∧ (∀ (s : State) (b0 b1 b2 b3 : Byte), isNoValue (sentinelsOf s.cfg .real32) [b0, b1, b2, b3] = false →
      HandsBack (.extract .real32 [b0, b1, b2, b3]) s (.value (.real (b3 ++ b2 ++ b1 ++ b0))))
  ∧ (∀ (s : State) (d : List Byte), exec (.extract .special d) s = .refused .illFormed)

/-- The lookups read the configured ROMs (43_dif_vif_rom.md R202, R212; 30_encoding.md R96): `DIF_LOOKUP` and the sixteen
`dif-data` rows the entry of their code with its number of data bytes, the 31 `vif-code` rows the entry of `VIF[6:0]`. That
the rows hand it back is the model's (log 12). -/
def Obligations.TheTableRowsReadTheConfiguredRoms : Prop :=
  ∀ s : State,
    (∀ code : BitVec 4, HandsBack (.difLookup code) s (.layout (s.cfg.difRom.get ⟨code.toNat, code.isLt⟩)))
    ∧ (∀ (i : Instr) (b : Byte) (k : Fin 16), encode i = some (.difData, [b]) → k.val = bits b 3 0 →
        HandsBack i s (.dataField (s.cfg.difRom.get k) (dataBytesOf (s.cfg.difRom.get k))))
    ∧ (∀ (i : Instr) (b : Byte) (k : Fin 128), encode i = some (.vifCode, [b]) → k.val = bits b 6 0 →
        HandsBack i s (.entry (s.cfg.vifRom.get k)))

/-- The `dif-data` and `vif-code` rows under the default ROMs (43_dif_vif_rom.md R201, R211): each its layout and number of
data bytes, or its quantity, unit and scale. The tables are the spec's general knowledge, but for the quantities of VIF
codes 0x06 and 0x13 (log 17); that a row hands its entry back is the model's (log 12). -/
def Obligations.TheDefaultTables : Prop :=
  (∀ (s : State) (e g : BitVec 1) (f : BitVec 2), s.cfg.difRom = defaultDifRom →
    HandsBack (.difData0NoData e g f) s (.dataField .noData (.fixed 0))
    ∧ HandsBack (.difData1Int1 e g f) s (.dataField (.int .w1) (.fixed 1))
    ∧ HandsBack (.difData2Int2 e g f) s (.dataField (.int .w2) (.fixed 2))
    ∧ HandsBack (.difData3Int3 e g f) s (.dataField (.int .w3) (.fixed 3))
    ∧ HandsBack (.difData4Int4 e g f) s (.dataField (.int .w4) (.fixed 4))
    ∧ HandsBack (.difData5Real32 e g f) s (.dataField .real32 (.fixed 4))
    ∧ HandsBack (.difData6Int6 e g f) s (.dataField (.int .w6) (.fixed 6))
    ∧ HandsBack (.difData7Int8 e g f) s (.dataField (.int .w8) (.fixed 8))
    ∧ HandsBack (.difData8Selection e g f) s (.dataField .selection (.fixed 0))
    ∧ HandsBack (.difData9Bcd2 e g f) s (.dataField (.bcd 2) (.fixed 1))
    ∧ HandsBack (.difDataABcd4 e g f) s (.dataField (.bcd 4) (.fixed 2))
    ∧ HandsBack (.difDataBBcd6 e g f) s (.dataField (.bcd 6) (.fixed 3))
    ∧ HandsBack (.difDataCBcd8 e g f) s (.dataField (.bcd 8) (.fixed 4))
    ∧ HandsBack (.difDataDVarLen e g f) s (.dataField .varLen .onePlusLvar)
    ∧ HandsBack (.difDataEBcd12 e g f) s (.dataField (.bcd 12) (.fixed 6))
    ∧ HandsBack (.difDataFSpecial e g f) s (.dataField .special .special))
  ∧ ∀ (s : State) (e : BitVec 1), s.cfg.vifRom = defaultVifRom →
    (∀ n : BitVec 3,
      HandsBack (.vif00Energy e n) s (.entry (.known .energy .wattHour (n.toNat - 3)))
      ∧ HandsBack (.vif08Energy e n) s (.entry (.known .energy .joule n.toNat))
      ∧ HandsBack (.vif10Volume e n) s (.entry (.known .volume .cubicMetre (n.toNat - 6)))
      ∧ HandsBack (.vif18Mass e n) s (.entry (.known .mass .kilogram (n.toNat - 3)))
      ∧ HandsBack (.vif28Power e n) s (.entry (.known .power .watt (n.toNat - 3)))
      ∧ HandsBack (.vif30Power e n) s (.entry (.known .power .joulePerHour n.toNat))
      ∧ HandsBack (.vif38VolumeFlow e n) s (.entry (.known .volumeFlow .cubicMetrePerHour (n.toNat - 6)))
      ∧ HandsBack (.vif40VolumeFlow e n) s (.entry (.known .volumeFlow .cubicMetrePerMinute (n.toNat - 7)))
      ∧ HandsBack (.vif48VolumeFlow e n) s (.entry (.known .volumeFlow .cubicMetrePerSecond (n.toNat - 9)))
      ∧ HandsBack (.vif50MassFlow e n) s (.entry (.known .massFlow .kilogramPerHour (n.toNat - 3))))
    ∧ (∀ n : BitVec 2,
      HandsBack (.vif58FlowTemperature e n) s (.entry (.known .flowTemperature .degreeCelsius (n.toNat - 3)))
      ∧ HandsBack (.vif5CReturnTemperature e n) s (.entry (.known .returnTemperature .degreeCelsius (n.toNat - 3)))
      ∧ HandsBack (.vif60TemperatureDifference e n) s (.entry (.known .temperatureDifference .kelvin (n.toNat - 3)))
      ∧ HandsBack (.vif64ExternalTemperature e n) s (.entry (.known .externalTemperature .degreeCelsius (n.toNat - 3)))
      ∧ HandsBack (.vif68Pressure e n) s (.entry (.known .pressure .bar (n.toNat - 3))))
    ∧ (∀ q ∈ ([(0, .second), (1, .minute), (2, .hour), (3, .day)] : List (BitVec 2 × PhysUnit)),
      HandsBack (.vif20OnTime e q.1) s (.entry (.known .onTime q.2 0))
      ∧ HandsBack (.vif24OperatingTime e q.1) s (.entry (.known .operatingTime q.2 0))
      ∧ HandsBack (.vif70AveragingDuration e q.1) s (.entry (.known .averagingDuration q.2 0))
      ∧ HandsBack (.vif74ActualityDuration e q.1) s (.entry (.known .actualityDuration q.2 0)))
    ∧ HandsBack (.vif6CTimePoint e) s (.entry (.known .timePoint .date 0))
    ∧ HandsBack (.vif6DTimePoint e) s (.entry (.known .timePoint .dateTime 0))
    ∧ HandsBack (.vif6EHcaUnits e) s (.entry (.known .hcaUnits .dimensionless 0))
    ∧ HandsBack (.vif6FReserved e) s (.entry .reserved)
    ∧ HandsBack (.vif78FabricationNo e) s (.entry (.known .fabricationNo .noUnit 0))
    ∧ HandsBack (.vif79EnhancedId e) s (.entry (.known .enhancedId .noUnit 0))
    ∧ HandsBack (.vif7ABusAddress e) s (.entry (.known .busAddress .noUnit 0))
    ∧ HandsBack (.vif7BExtTableFB e) s (.entry (.extTable .fb))
    ∧ HandsBack (.vif7CPlainText e) s (.entry .plainText)
    ∧ HandsBack (.vif7DExtTableFD e) s (.entry (.extTable .fd))
    ∧ HandsBack (.vif7EAnyVif e) s (.entry .anyVif)
    ∧ HandsBack (.vif7FMfrSpecific e) s (.entry .mfrSpecific)

/-- The final value of a reading (43_dif_vif_rom.md R227): the exact rational `raw * 10^s` or the real number
`REAL_INTERP(bits) * 10^s` for a resolved number, and none for text, the sentinels and unknown codes. For every
`REAL_INTERP`, over the reals or any other field. -/
def Obligations.TheFinalValueIsRawTimesTheScale : Prop :=
  ∀ (K : Type) [Field K] (interp : Word32 → RealVal K) (r : Reading),
    (∀ q u sc raw, r.tag = .resolved q u sc → r.value = .num raw →
      finalValue interp r = some (.exact ((raw : Rat) * (10 : Rat) ^ sc)))
    ∧ (∀ q u sc w x, r.tag = .resolved q u sc → r.value = .real w → interp w = .number x →
      finalValue interp r = some (.real (.number (x * (10 : K) ^ sc))))
    ∧ ((∃ bs, r.value = .text bs) ∨ r.value = .noValue ∨ r.value = .empty ∨ r.value = .badBcd →
      finalValue interp r = none)
    ∧ (∀ reason, r.tag = .unknown reason → finalValue interp r = none)

end
end

