-- ==== Sys2Proof/Laws/Memory.lean ====
section
/-! SUPPORT. The laws of a byte buffer: what a read finds after a write, and that writing keeps the canonical form. -/

namespace Sys2Proof.Machine

theorem Memory.read_nil (a : Nat) : Memory.read [] a = Memory.blank := rfl

/-- A read finds the byte just written. -/
theorem Memory.read_write_same (m : Memory) (a : Nat) (v : Byte) (h : m.wf) : (m.write a v).read a = v := by
  induction m with
  | nil => by_cases hv : v = Memory.blank <;> simp [Memory.write, Memory.read, hv]
  | cons c m ih =>
    obtain ⟨k, w⟩ := c
    have hm : Memory.wf m := ⟨h.1.of_cons, fun c hc => h.2 c (List.mem_cons_of_mem _ hc)⟩
    have hgt : ∀ c ∈ m, k < c.1 := (List.pairwise_cons.mp h.1).1
    have hnone : ∀ m' : Memory, (∀ c ∈ m', a < c.1) → m'.read a = Memory.blank := by
      intro m' h'
      induction m' with
      | nil => rfl
      | cons c m' ih' =>
        have : c.1 ≠ a := by have := h' c (by simp); omega
        simp only [Memory.read, this, if_false]
        exact ih' fun c hc => h' c (List.mem_cons_of_mem _ hc)
    unfold Memory.write
    by_cases h1 : k < a
    · simp only [h1, if_true, Memory.read, Nat.ne_of_lt h1, if_false]
      exact ih hm
    · by_cases h2 : k = a
      · subst h2
        by_cases hv : v = Memory.blank
        · simp [hv, hnone m hgt]
        · simp [hv, Memory.read]
      · by_cases hv : v = Memory.blank
        · simp only [h1, h2, hv, if_false, if_true]
          refine hnone _ fun c hc => ?_
          rcases List.mem_cons.mp hc with rfl | hc
          · show a < k; omega
          · have := hgt c hc; omega
        · simp [h1, h2, hv, Memory.read]

/-- A write leaves every other element alone. -/
@[simp] theorem Memory.read_write_other (m : Memory) (a a' : Nat) (v : Byte) (h : a' ≠ a) :
    (m.write a v).read a' = m.read a' := by
  induction m with
  | nil =>
    by_cases hv : v = Memory.blank
    · simp [Memory.write, hv]
    · simp [Memory.write, hv, Memory.read, Ne.symm h]
  | cons c m ih =>
    obtain ⟨k, w⟩ := c
    unfold Memory.write
    by_cases h1 : k < a
    · simp only [h1, if_true, Memory.read, ih]
    · by_cases h2 : k = a
      · subst h2
        by_cases hv : v = Memory.blank <;> simp [hv, Memory.read, Ne.symm h]
      · by_cases hv : v = Memory.blank <;> simp [h1, h2, hv, Memory.read, Ne.symm h]

theorem Memory.read_write (m : Memory) (a a' : Nat) (v : Byte) (h : m.wf) :
    (m.write a v).read a' = if a' = a then v else m.read a' := by
  by_cases h' : a' = a
  · subst h'; rw [if_pos rfl, Memory.read_write_same m a' v h]
  · simp [h']

/-- Every cell of the memory after a write is the written one or was there before. -/
theorem Memory.mem_write {m : Memory} {a : Nat} {v : Byte} {c : Host.Cell} (hc : c ∈ m.write a v) :
    (c = (a, v) ∧ v ≠ Memory.blank) ∨ c ∈ m := by
  induction m with
  | nil =>
    by_cases hv : v = Memory.blank
    · simp [Memory.write, hv] at hc
    · simp [Memory.write, hv] at hc
      exact .inl ⟨hc, hv⟩
  | cons d m ih =>
    obtain ⟨k, w⟩ := d
    unfold Memory.write at hc
    by_cases h1 : k < a
    · simp only [h1, if_true, List.mem_cons] at hc
      rcases hc with rfl | hc
      · simp
      · rcases ih hc with h | h
        · exact .inl h
        · exact .inr (List.mem_cons_of_mem _ h)
    · by_cases h2 : k = a
      · by_cases hv : v = Memory.blank
        · simp [h2, hv] at hc
          exact .inr (List.mem_cons_of_mem _ hc)
        · simp [h2, hv] at hc
          rcases hc with rfl | hc
          · exact .inl ⟨rfl, hv⟩
          · exact .inr (List.mem_cons_of_mem _ hc)
      · by_cases hv : v = Memory.blank
        · simp [h1, h2, hv] at hc
          exact .inr (by simpa using hc)
        · simp only [h1, h2, hv, if_false, List.mem_cons] at hc
          rcases hc with rfl | hc
          · exact .inl ⟨rfl, hv⟩
          · exact .inr (by simpa using hc)

/-- A write keeps the canonical form. -/
theorem Memory.wf_write {m : Memory} (a : Nat) (v : Byte) (h : m.wf) : (m.write a v).wf := by
  refine ⟨?_, fun c hc => ?_⟩
  · induction m with
    | nil => by_cases hv : v = Memory.blank <;> simp [Memory.write, hv]
    | cons d m ih =>
      obtain ⟨k, w⟩ := d
      have hm : Memory.wf m := ⟨h.1.of_cons, fun c hc => h.2 c (List.mem_cons_of_mem _ hc)⟩
      have hgt : ∀ c ∈ m, k < c.1 := (List.pairwise_cons.mp h.1).1
      unfold Memory.write
      by_cases h1 : k < a
      · simp only [h1, if_true]
        refine List.pairwise_cons.mpr ⟨fun c hc => ?_, ih hm⟩
        rcases Memory.mem_write hc with ⟨rfl, -⟩ | hc
        · exact h1
        · exact hgt c hc
      · by_cases h2 : k = a
        · subst h2
          by_cases hv : v = Memory.blank
          · simp only [hv, if_true]; simpa using hm.1
          · simp only [hv, if_true, if_false]
            simpa using ⟨fun x y hc => hgt (x, y) hc, hm.1⟩
        · by_cases hv : v = Memory.blank
          · simp only [h1, h2, hv, if_false, if_true]; exact h.1
          · simp only [h1, h2, hv, if_false]
            refine List.pairwise_cons.mpr ⟨fun c hc => ?_, h.1⟩
            rcases List.mem_cons.mp hc with rfl | hc
            · show a < k; omega
            · have := hgt c hc; show a < c.1; omega
  · rcases Memory.mem_write hc with ⟨rfl, hv⟩ | hc
    · exact hv
    · exact h.2 c hc

/-- A write inside the buffer stays inside it. -/
theorem Memory.within_write {m : Memory} {a size : Nat} (v : Byte) (h : m.within size) (ha : a < size) :
    (m.write a v).within size := by
  intro c hc
  rcases Memory.mem_write hc with ⟨rfl, -⟩ | hc
  · exact ha
  · exact h c hc

theorem Memory.wf_writeRange (bs : List Byte) : ∀ {m : Memory} (a : Nat), m.wf → (m.writeRange a bs).wf := by
  induction bs with
  | nil => exact fun _ h => h
  | cons b bs ih => exact fun a h => ih (a + 1) (Memory.wf_write a b h)

theorem Memory.within_writeRange (bs : List Byte) {size : Nat} :
    ∀ {m : Memory} (a : Nat), m.within size → a + bs.length ≤ size → (m.writeRange a bs).within size := by
  induction bs with
  | nil => exact fun _ h _ => h
  | cons b bs ih =>
    intro m a h ha
    simp only [List.length_cons] at ha
    exact ih (a + 1) (Memory.within_write b h (by omega)) (by omega)

/-- What a read finds after writing a range. -/
theorem Memory.read_writeRange (bs : List Byte) :
    ∀ {m : Memory} (a a' : Nat), m.wf →
      (m.writeRange a bs).read a' = if a ≤ a' ∧ a' < a + bs.length then bs.getD (a' - a) 0 else m.read a' := by
  induction bs with
  | nil => intro m a a' _; simp only [Memory.writeRange, List.length_nil]; rw [if_neg (by omega)]
  | cons b bs ih =>
    intro m a a' h
    simp only [Memory.writeRange, List.length_cons]
    rw [ih (a + 1) a' (Memory.wf_write a b h), Memory.read_write m a a' b h]
    by_cases h1 : a + 1 ≤ a' ∧ a' < a + 1 + bs.length
    · rw [if_pos h1, if_pos (by omega)]
      obtain ⟨k, rfl⟩ : ∃ k, a' = a + 1 + k := ⟨a' - (a + 1), by omega⟩
      rw [show a + 1 + k - (a + 1) = k by omega, show a + 1 + k - a = k + 1 by omega]
      simp
    · rw [if_neg h1]
      by_cases h2 : a' = a
      · subst h2; simp
      · rw [if_neg h2, if_neg (by omega)]

@[simp] theorem Memory.length_readRange (m : Memory) (n : Nat) : ∀ a, (m.readRange a n).length = n := by
  induction n with
  | zero => intro a; rfl
  | succ n ih => intro a; simp [Memory.readRange, ih]

/-- The elements a range read returns. -/
theorem Memory.getElem?_readRange (m : Memory) (n : Nat) :
    ∀ a k, k < n → (m.readRange a n)[k]? = some (m.read (a + k)) := by
  induction n with
  | zero => intro a k h; omega
  | succ n ih =>
    intro a k h
    cases k with
    | zero => simp [Memory.readRange]
    | succ k => simp only [Memory.readRange, List.getElem?_cons_succ]; rw [ih (a + 1) k (by omega)]; congr 2; omega

/-- A range read depends only on the elements it reads. -/
theorem Memory.readRange_congr {m m' : Memory} (n : Nat) :
    ∀ a, (∀ k, a ≤ k → k < a + n → m.read k = m'.read k) → m.readRange a n = m'.readRange a n := by
  induction n with
  | zero => intro a _; rfl
  | succ n ih =>
    intro a h
    simp only [Memory.readRange]
    rw [h a (by omega) (by omega), ih (a + 1) fun k h1 h2 => h k (by omega) (by omega)]

/-- A range read grows by one element at its end. -/
theorem Memory.readRange_succ (m : Memory) (n : Nat) :
    ∀ a, m.readRange a (n + 1) = m.readRange a n ++ [m.read (a + n)] := by
  induction n with
  | zero => intro a; rfl
  | succ n ih =>
    intro a
    rw [Memory.readRange, ih (a + 1)]
    simp only [Memory.readRange, List.cons_append]
    congr 4; omega

/-- Reading back a range just written. -/
theorem Memory.readRange_writeRange {m : Memory} (bs : List Byte) (h : m.wf) (a : Nat) :
    (m.writeRange a bs).readRange a bs.length = bs := by
  apply List.ext_getElem?
  intro k
  by_cases hk : k < bs.length
  · rw [Memory.getElem?_readRange _ _ _ _ hk, Memory.read_writeRange bs _ _ h, if_pos (by omega)]
    simp [hk]
  · rw [List.getElem?_eq_none (by simpa using hk), List.getElem?_eq_none (by simpa using hk)]

end Sys2Proof.Machine
end

