-- ==== Sys2Proof/Laws/State.lean ====
section
/-! SUPPORT. What each update of the state does to each field, so that no later proof unfolds a record update. -/

namespace Sys2Proof.Machine

variable (s : State)

@[simp] theorem answer_rx (a : Answer) : (answer s a).rx = s.rx := rfl
@[simp] theorem answer_res (a : Answer) : (answer s a).res = s.res := rfl
@[simp] theorem answer_tx (a : Answer) : (answer s a).tx = s.tx := rfl
@[simp] theorem answer_cfg (a : Answer) : (answer s a).cfg = s.cfg := rfl
@[simp] theorem answer_inputs (a : Answer) : (answer s a).inputs = s.inputs := rfl
@[simp] theorem answer_events (a : Answer) : (answer s a).events = s.events := rfl
@[simp] theorem answer_answers (a : Answer) : (answer s a).answers = s.answers ++ [a] := rfl
@[simp] theorem answer_freeCount (a : Answer) : (answer s a).freeCount = s.freeCount := rfl

@[simp] theorem applyRx_rx (o : RxOut) : (applyRx s o).rx = o.rx := rfl
@[simp] theorem applyRx_res (o : RxOut) : (applyRx s o).res = o.res := rfl
@[simp] theorem applyRx_tx (o : RxOut) : (applyRx s o).tx = s.tx := rfl
@[simp] theorem applyRx_cfg (o : RxOut) : (applyRx s o).cfg = s.cfg := rfl
@[simp] theorem applyRx_inputs (o : RxOut) : (applyRx s o).inputs = s.inputs := rfl
@[simp] theorem applyRx_events (o : RxOut) : (applyRx s o).events = s.events ++ o.event.toList := rfl
@[simp] theorem applyRx_answers (o : RxOut) : (applyRx s o).answers = s.answers := rfl
@[simp] theorem applyRx_freeCount (o : RxOut) : (applyRx s o).freeCount = s.freeCount := rfl

@[simp] theorem rejectTx_rx (k : TxError) : (rejectTx k s).rx = s.rx := rfl
@[simp] theorem rejectTx_res (k : TxError) : (rejectTx k s).res = s.res := rfl
@[simp] theorem rejectTx_tx (k : TxError) : (rejectTx k s).tx = { s.tx with code := txErrorCode k } := rfl
@[simp] theorem rejectTx_cfg (k : TxError) : (rejectTx k s).cfg = s.cfg := rfl
@[simp] theorem rejectTx_inputs (k : TxError) : (rejectTx k s).inputs = s.inputs := rfl
@[simp] theorem rejectTx_events (k : TxError) : (rejectTx k s).events = s.events ++ [.txRejected k] := rfl
@[simp] theorem rejectTx_answers (k : TxError) : (rejectTx k s).answers = s.answers := rfl
@[simp] theorem rejectTx_freeCount (k : TxError) : (rejectTx k s).freeCount = s.freeCount := rfl

@[simp] theorem resetBlock_rx : (resetBlock s).rx = Rx.reset := rfl
@[simp] theorem resetBlock_res : (resetBlock s).res = Res.reset := rfl
@[simp] theorem resetBlock_tx : (resetBlock s).tx = Tx.reset := rfl
@[simp] theorem resetBlock_cfg : (resetBlock s).cfg = s.cfg := rfl
@[simp] theorem resetBlock_inputs : (resetBlock s).inputs = s.inputs := rfl
@[simp] theorem resetBlock_events : (resetBlock s).events = s.events := rfl
@[simp] theorem resetBlock_answers : (resetBlock s).answers = s.answers := rfl
@[simp] theorem resetBlock_freeCount : (resetBlock s).freeCount = s.freeCount := rfl

@[simp] theorem flushRx_rx : (flushRx s).rx = { s.rx with state := .hunt, cnt := 0, sum := 0 } := rfl
@[simp] theorem flushRx_res : (flushRx s).res = s.res := rfl
@[simp] theorem flushRx_tx : (flushRx s).tx = s.tx := rfl
@[simp] theorem flushRx_cfg : (flushRx s).cfg = s.cfg := rfl
@[simp] theorem flushRx_inputs : (flushRx s).inputs = s.inputs := rfl
@[simp] theorem flushRx_events : (flushRx s).events = s.events := rfl
@[simp] theorem flushRx_answers : (flushRx s).answers = s.answers := rfl
@[simp] theorem flushRx_freeCount : (flushRx s).freeCount = s.freeCount := rfl

end Sys2Proof.Machine
end

