-- ==== Sys2Proof/Laws/Ops.lean ====
section
/-! SUPPORT. What each shared operation can do, said once: the receive step, feeding bytes, the transmit steps and `exec`. -/

namespace Sys2Proof.Machine

/-! ### Receiving -/

/-- A received byte has an effect wherever the sequencing state is in its range (40_rx_framer.md R110). -/
theorem rxStep_some {rx : Rx} (b : Byte) (res : Res) (h : RxSeqOk rx) : ∃ o, rxStep b rx res = some o := by
  unfold rxStep
  obtain ⟨-, h2, h3⟩ := h
  cases hs : rx.state with
  | hunt => exact ⟨_, rfl⟩
  | short =>
    have := h2 hs
    by_cases hc : rx.cnt = 4
    · exact ⟨_, by simp [hc]; rfl⟩
    · exact ⟨_, if_pos (by omega)⟩
  | long =>
    have := h3 hs
    by_cases hc : rx.cnt = 1 ∨ (2 ≤ rx.cnt ∧ rx.cnt ≤ rx.l1.toNat + 4)
    · exact ⟨_, if_pos hc⟩
    · exact ⟨_, (if_neg hc).trans (if_pos (by omega))⟩

/-- Which case of R110 a receive step is. -/
theorem rxStep_cases {b : Byte} {rx : Rx} {res : Res} {o : RxOut} (h : rxStep b rx res = some o) :
    (rx.state = .hunt ∧ o = rxHunt b rx res)
    ∨ (rx.state = .short ∧ 1 ≤ rx.cnt ∧ rx.cnt ≤ 3 ∧ o = rxShortBody b rx res)
    ∨ (rx.state = .short ∧ rx.cnt = 4 ∧ o = rxShortStop b rx res)
    ∨ (rx.state = .long ∧ (rx.cnt = 1 ∨ (2 ≤ rx.cnt ∧ rx.cnt ≤ rx.l1.toNat + 4)) ∧ o = rxLongBody b rx res)
    ∨ (rx.state = .long ∧ 2 ≤ rx.cnt ∧ rx.cnt = rx.l1.toNat + 5 ∧ o = rxLongStop b rx res) := by
  unfold rxStep at h
  cases hs : rx.state with
  | hunt => simp only [hs, Option.some.injEq] at h; exact .inl ⟨rfl, h.symm⟩
  | short =>
    simp only [hs] at h
    split at h
    · rename_i hc; simp only [Option.some.injEq] at h; exact .inr (.inl ⟨rfl, hc.1, hc.2, h.symm⟩)
    · split at h
      · rename_i hc; simp only [Option.some.injEq] at h; exact .inr (.inr (.inl ⟨rfl, hc, h.symm⟩))
      · cases h
  | long =>
    simp only [hs] at h
    split at h
    · rename_i hc; simp only [Option.some.injEq] at h; exact .inr (.inr (.inr (.inl ⟨rfl, hc, h.symm⟩)))
    · split at h
      · rename_i hc; simp only [Option.some.injEq] at h; exact .inr (.inr (.inr (.inr ⟨rfl, hc.1, hc.2, h.symm⟩)))
      · cases h

/-- What receiving a byte can do. -/
theorem receive_next {b : Byte} {s t : State} (h : receive b s = .next t) :
    ∃ o, rxStep b s.rx s.res = some o ∧ t = applyRx s o := by
  unfold receive at h
  split at h
  · rename_i o ho; cases h; exact ⟨o, ho, rfl⟩
  · cases h

theorem receive_of_rxStep {b : Byte} {s : State} {o : RxOut} (h : rxStep b s.rx s.res = some o) :
    receive b s = .next (applyRx s o) := by simp [receive, h]

/-- Receiving never refuses. -/
theorem receive_ne_refused (b : Byte) (s : State) (r : Refusal) : receive b s ≠ .refused r := by
  unfold receive; split <;> simp

/-- Feeding a sequence is feeding its parts in order (40_rx_framer.md R135). -/
theorem receiveAll_append (as bs : List Byte) (s : State) :
    receiveAll (as ++ bs) s =
      match receiveAll as s with
      | .next s' => receiveAll bs s'
      | .fault f => .fault f
      | .refused r => .refused r := by
  induction as generalizing s with
  | nil => rfl
  | cons a as ih =>
    simp only [List.cons_append, receiveAll]
    cases receive a s with
    | next s' => exact ih s'
    | fault f => rfl
    | refused r => rfl

/-- What every received byte keeps, feeding keeps. -/
theorem receiveAll_keeps {P : State → Prop} (hr : ∀ b s t, P s → receive b s = .next t → P t) (bs : List Byte) :
    ∀ {s t : State}, P s → receiveAll bs s = .next t → P t := by
  induction bs with
  | nil => intro s t hp h; cases h; exact hp
  | cons b bs ih =>
    intro s t hp h
    simp only [receiveAll] at h
    cases hb : receive b s with
    | next s' => rw [hb] at h; exact ih (hr b s s' hp hb) h
    | fault f => rw [hb] at h; cases h
    | refused r => rw [hb] at h; cases h

/-- A receive byte class does what receiving its byte does (40_rx_framer.md R110), when its own effect is the one of
R110's case. -/
theorem receiveClass_eq {applies : Bool} {own : RxOut} {b : Byte} {s : State}
    (h : applies = true → rxStep b s.rx s.res = some own) : receiveClass applies own b s = receive b s := by
  unfold receiveClass
  cases ha : applies with
  | false => rfl
  | true => simp [receive, h ha]

/-! ### Transmitting -/

/-- What `TX_START` can do (41_tx_encoder.md R153, R155). -/
theorem startTx_cases (req : TxReq) (s : State) :
    (s.tx.state = .sending ∧ startTx req s = rejectTx .txBusy s)
    ∨ (s.tx.state = .idle ∧ encodeReq req = none ∧ startTx req s = rejectTx .invalidFrame s)
    ∨ (∃ w, s.tx.state = .idle ∧ encodeReq req = some w
        ∧ startTx req s =
          { s with tx := loadTx req w (Config.freeTxSum s.freeCount) s.tx, freeCount := s.freeCount + 1 }) := by
  unfold startTx
  cases hs : s.tx.state with
  | sending => exact .inl ⟨rfl, rfl⟩
  | idle =>
    cases he : encodeReq req with
    | none => exact .inr (.inl ⟨rfl, rfl, rfl⟩)
    | some w => exact .inr (.inr ⟨w, rfl, rfl, rfl⟩)

/-- What `TX_STEP` can do when it goes on (41_tx_encoder.md R156, R157). -/
theorem stepTx_next {s t : State} (h : stepTx s = .next t) :
    (s.tx.state = .idle ∧ t = s)
    ∨ (∃ b, s.tx.state = .sending ∧ (txImage s.tx)[s.tx.pos]? = some b
        ∧ t =
          { s with
            tx := (advanceTx b (Config.freeTxSum s.freeCount) s.tx).1
            events := s.events ++ (advanceTx b (Config.freeTxSum s.freeCount) s.tx).2
            freeCount := s.freeCount + 1 }) := by
  unfold stepTx at h
  cases hs : s.tx.state with
  | idle => rw [hs] at h; cases h; exact .inl ⟨rfl, rfl⟩
  | sending =>
    simp only [hs] at h
    split at h
    · cases h
    · rename_i b hb; cases h; exact .inr ⟨b, rfl, hb, rfl⟩

/-- What every `TX_STEP` keeps, repeating it keeps. -/
theorem stepTxTimes_keeps {P : State → Prop} (hr : ∀ s t, P s → stepTx s = .next t → P t) (n : Nat) :
    ∀ {s t : State}, P s → stepTxTimes n s = .next t → P t := by
  induction n with
  | zero => intro s t hp h; cases h; exact hp
  | succ n ih =>
    intro s t hp h
    simp only [stepTxTimes] at h
    cases hb : stepTx s with
    | next s' => rw [hb] at h; exact ih (hr s s' hp hb) h
    | fault f => rw [hb] at h; cases h
    | refused r => rw [hb] at h; cases h

/-- In `IDLE` repeating `TX_STEP` does nothing (41_tx_encoder.md R157). -/
theorem stepTxTimes_idle {s : State} (h : s.tx.state = .idle) (n : Nat) : stepTxTimes n s = .next s := by
  induction n with
  | zero => rfl
  | succ n ih => simp only [stepTxTimes, stepTx, h]; exact ih

theorem answerOrRefuse_next {s t : State} {r : Option Answer} (h : answerOrRefuse s r = .next t) :
    ∃ a, r = some a ∧ t = answer s a := by
  cases r with
  | none => cases h
  | some a => cases h; exact ⟨a, rfl, rfl⟩

theorem receiveClass_next {applies : Bool} {own : RxOut} {b : Byte} {s t : State}
    (hown : applies = true → rxStep b s.rx s.res = some own) (h : receiveClass applies own b s = .next t) :
    receive b s = .next t := by rwa [receiveClass_eq hown] at h

/-! ### exec -/

/-- Where a receive byte class goes on, its byte has been received. -/
theorem exec_class_next (i : Instr) (b : Byte) (h : encode i = some (.channel, [b])) {s t : State}
    (he : exec i s = .next t) : receive b s = .next t := by
  cases i <;> simp only [encode, Option.some.injEq, Prod.mk.injEq, reduceCtorEq, false_and, List.cons.injEq, and_true,
    true_and] at h
  case rxHuntAck =>
    subst h; refine receiveClass_next (fun ha => ?_) he
    have : s.rx.state = .hunt := of_decide_eq_true ha
    simp [rxStep, this, rxHunt]
  case rxHuntStartShort =>
    subst h; refine receiveClass_next (fun ha => ?_) he
    have : s.rx.state = .hunt := of_decide_eq_true ha
    simp [rxStep, this, rxHunt, startShort, ackByte]
  case rxHuntStartLong =>
    subst h; refine receiveClass_next (fun ha => ?_) he
    have : s.rx.state = .hunt := of_decide_eq_true ha
    simp [rxStep, this, rxHunt, startShort, ackByte, startLong]
  case rxHuntOther c =>
    subst h; refine receiveClass_next (fun ha => ?_) he
    have ha := Bool.and_eq_true_iff.mp ha
    have : s.rx.state = .hunt ∧ c ≠ ackByte ∧ c ≠ startShort ∧ c ≠ startLong :=
      ⟨of_decide_eq_true ha.1, of_decide_eq_true ha.2⟩
    simp [rxStep, this.1, rxHunt, this.2.1, this.2.2.1, this.2.2.2]
  case rxShortBody c =>
    subst h; refine receiveClass_next (fun ha => ?_) he
    have : s.rx.state = .short ∧ 1 ≤ s.rx.cnt ∧ s.rx.cnt ≤ 3 := of_decide_eq_true ha
    simp only [rxStep, this.1]; rw [if_pos this.2]
  case rxShortStop c =>
    subst h; refine receiveClass_next (fun ha => ?_) he
    have : s.rx.state = .short ∧ s.rx.cnt = 4 := of_decide_eq_true ha
    simp [rxStep, this.1, this.2]
  case rxLongBody c =>
    subst h; refine receiveClass_next (fun ha => ?_) he
    have : s.rx.state = .long ∧ (s.rx.cnt = 1 ∨ (2 ≤ s.rx.cnt ∧ s.rx.cnt ≤ s.rx.l1.toNat + 4)) := of_decide_eq_true ha
    simp only [rxStep, this.1]; rw [if_pos this.2]
  case rxLongStop c =>
    subst h; refine receiveClass_next (fun ha => ?_) he
    have : s.rx.state = .long ∧ 2 ≤ s.rx.cnt ∧ s.rx.cnt = s.rx.l1.toNat + 5 := of_decide_eq_true ha
    simp only [rxStep, this.1]; rw [if_neg (by omega), if_pos this.2]

/-- What `exec` can do when it goes on: hand back a value, receive bytes, start or step the transmitter, reset, flush, or
send a whole frame. -/
theorem exec_next {i : Instr} {s t : State} (h : exec i s = .next t) :
    (∃ a, t = answer s a)
    ∨ (∃ bs, receiveAll bs s = .next t)
    ∨ (∃ req, t = startTx req s)
    ∨ stepTx s = .next t
    ∨ t = resetBlock s
    ∨ t = flushRx s
    ∨ (∃ req t', sendFrame req s = .next t' ∧ (t = t' ∨ ∃ a, t = answer t' a)) := by
  have one : ∀ {b : Byte}, receive b s = .next t → ∃ bs, receiveAll bs s = .next t :=
    fun {b} hb => ⟨[b], by simp [receiveAll, hb]⟩
  have done : ∀ {a : Answer}, Host.Outcome.next (answer s a) = (.next t : Out) → ∃ a, t = answer s a :=
    fun {a} ha => ⟨a, by cases ha; rfl⟩
  cases i
  case frameAck => exact .inr (.inl ⟨_, h⟩)
  case frameShort => exact .inr (.inl ⟨_, h⟩)
  case frameControl => exact .inr (.inl ⟨_, h⟩)
  case frameLong =>
    simp only [exec, execFrameLong] at h
    split at h
    · exact .inr (.inl ⟨_, h⟩)
    · cases h
  case rxHuntAck => exact .inr (.inl (one (exec_class_next _ _ rfl h)))
  case rxHuntStartShort => exact .inr (.inl (one (exec_class_next _ _ rfl h)))
  case rxHuntStartLong => exact .inr (.inl (one (exec_class_next _ _ rfl h)))
  case rxHuntOther => exact .inr (.inl (one (exec_class_next _ _ rfl h)))
  case rxShortBody => exact .inr (.inl (one (exec_class_next _ _ rfl h)))
  case rxShortStop => exact .inr (.inl (one (exec_class_next _ _ rfl h)))
  case rxLongBody => exact .inr (.inl (one (exec_class_next _ _ rfl h)))
  case rxLongStop => exact .inr (.inl (one (exec_class_next _ _ rfl h)))
  case rxByte => exact .inr (.inl (one h))
  case txStart req => cases h; exact .inr (.inr (.inl ⟨req, rfl⟩))
  case txStep => exact .inr (.inr (.inr (.inl h)))
  case reset => cases h; exact .inr (.inr (.inr (.inr (.inl rfl))))
  case rxFlush => cases h; exact .inr (.inr (.inr (.inr (.inr (.inl rfl)))))
  case feed => exact .inr (.inl ⟨_, h⟩)
  case encode req =>
    simp only [exec, execEncode] at h
    split at h
    · rename_i t' ht; cases h
      exact .inr (.inr (.inr (.inr (.inr (.inr ⟨req, t', ht, .inr ⟨_, rfl⟩⟩)))))
    · cases h
    · cases h
  case send req => exact .inr (.inr (.inr (.inr (.inr (.inr ⟨req, t, h, .inl rfl⟩)))))
  case hostRead => obtain ⟨a, -, ht⟩ := answerOrRefuse_next h; exact .inl ⟨a, ht⟩
  case recHeader => obtain ⟨a, -, ht⟩ := answerOrRefuse_next h; exact .inl ⟨a, ht⟩
  case extract => obtain ⟨a, -, ht⟩ := answerOrRefuse_next h; exact .inl ⟨a, ht⟩
  case recDecode => obtain ⟨a, -, ht⟩ := answerOrRefuse_next h; exact .inl ⟨a, ht⟩
  all_goals exact .inl (done h)

/-- A property of the state that every elementary action keeps, every instruction keeps. -/
theorem exec_keeps {P : State → Prop}
    (hans : ∀ s a, P s → P (answer s a)) (hrx : ∀ b s t, P s → receive b s = .next t → P t)
    (hstart : ∀ req s, P s → P (startTx req s)) (hstep : ∀ s t, P s → stepTx s = .next t → P t)
    (hreset : ∀ s, P s → P (resetBlock s)) (hflush : ∀ s, P s → P (flushRx s))
    {i : Instr} {s t : State} (hp : P s) (h : exec i s = .next t) : P t := by
  have hsend : ∀ req t', sendFrame req s = .next t' → P t' := fun req t' ht =>
    stepTxTimes_keeps hstep _ (hstart req s hp) ht
  rcases exec_next h with ⟨a, rfl⟩ | ⟨bs, hb⟩ | ⟨req, rfl⟩ | hs | rfl | rfl | ⟨req, t', ht, rfl | ⟨a, rfl⟩⟩
  · exact hans s a hp
  · exact receiveAll_keeps hrx bs hp hb
  · exact hstart req s hp
  · exact hstep s t hp hs
  · exact hreset s hp
  · exact hflush s hp
  · exact hsend req _ ht
  · exact hans _ a (hsend req t' ht)

/-- What a step is: waiting, or running the instruction the next input is. -/
theorem step_next {s t : State} (h : step s = .next t) :
    (s.inputs = [] ∧ t = s)
    ∨ (∃ input later i more, s.inputs = input :: later ∧ fetch s input = .ok (i, more)
        ∧ exec i { s with inputs := more ++ later } = .next t) := by
  unfold step at h
  split at h
  · rename_i hi; cases h; exact .inl ⟨hi, rfl⟩
  · rename_i input later hi
    split at h
    · rename_i i more hf; exact .inr ⟨input, later, i, more, hi, hf, h⟩
    · cases h

end Sys2Proof.Machine
end

