-- ==== Sys2Proof/Laws/PerInstr.lean ====
section
/-! SUPPORT. Statements made for every instruction: the encoding lies in the row of spec/opcode_table.json it is for. -/

namespace Sys2Proof.Laws

/-- The mask and match of an instruction's row, as spec/opcode_table.json gives them; none for a row that gives none
(30_encoding.md R103: a byte `b` belongs to the row when `b & mask = match`). -/
def tableRow : Instr → Option (Byte × Byte)
  | .frameAck => some (0xFF, 0xE5)
  | .frameShort _ _ => some (0xFF, 0x10)
  | .frameControl _ _ _ => some (0xFF, 0x68)
  | .frameLong _ _ _ _ => some (0xFF, 0x68)
  | .rxHuntAck => some (0xFF, 0xE5)
  | .rxHuntStartShort => some (0xFF, 0x10)
  | .rxHuntStartLong => some (0xFF, 0x68)
  | .rxHuntOther _ => none
  | .rxShortBody _ => none
  | .rxShortStop _ => none
  | .rxLongBody _ => none
  | .rxLongStop _ => none
  | .rxByte _ => none
  | .txStart _ => none
  | .txStep => none
  | .reset => none
  | .rxFlush => none
  | .hostRead _ => none
  | .recHeader _ _ => none
  | .recScan _ _ => none
  | .difLookup _ => none
  | .difFields _ => none
  | .difeAcc _ _ => none
  | .vifLookup _ _ => none
  | .extract _ _ => none
  | .recDecode _ _ => none
  | .feed _ => none
  | .decode _ => none
  | .encode _ => none
  | .send _ => none
  | .dif _ _ _ _ => none
  | .dife _ _ _ _ => none
  | .vif _ _ => none
  | .vife _ _ => none
  | .lvar _ => none
  | .difFuncInstantaneous _ _ _ => some (0x30, 0x00)
  | .difFuncMaximum _ _ _ => some (0x30, 0x10)
  | .difFuncMinimum _ _ _ => some (0x30, 0x20)
  | .difFuncError _ _ _ => some (0x30, 0x30)
  | .difData0NoData _ _ _ => some (0x0F, 0x00)
  | .difData1Int1 _ _ _ => some (0x0F, 0x01)
  | .difData2Int2 _ _ _ => some (0x0F, 0x02)
  | .difData3Int3 _ _ _ => some (0x0F, 0x03)
  | .difData4Int4 _ _ _ => some (0x0F, 0x04)
  | .difData5Real32 _ _ _ => some (0x0F, 0x05)
  | .difData6Int6 _ _ _ => some (0x0F, 0x06)
  | .difData7Int8 _ _ _ => some (0x0F, 0x07)
  | .difData8Selection _ _ _ => some (0x0F, 0x08)
  | .difData9Bcd2 _ _ _ => some (0x0F, 0x09)
  | .difDataABcd4 _ _ _ => some (0x0F, 0x0A)
  | .difDataBBcd6 _ _ _ => some (0x0F, 0x0B)
  | .difDataCBcd8 _ _ _ => some (0x0F, 0x0C)
  | .difDataDVarLen _ _ _ => some (0x0F, 0x0D)
  | .difDataEBcd12 _ _ _ => some (0x0F, 0x0E)
  | .difDataFSpecial _ _ _ => some (0x0F, 0x0F)
  | .difMfrTail _ => some (0xFF, 0x0F)
  | .difMfrTailMore _ => some (0xFF, 0x1F)
  | .difFiller => some (0xFF, 0x2F)
  | .difSpecialOther _ => none
  | .vif00Energy _ _ => some (0x78, 0x00)
  | .vif08Energy _ _ => some (0x78, 0x08)
  | .vif10Volume _ _ => some (0x78, 0x10)
  | .vif18Mass _ _ => some (0x78, 0x18)
  | .vif20OnTime _ _ => some (0x7C, 0x20)
  | .vif24OperatingTime _ _ => some (0x7C, 0x24)
  | .vif28Power _ _ => some (0x78, 0x28)
  | .vif30Power _ _ => some (0x78, 0x30)
  | .vif38VolumeFlow _ _ => some (0x78, 0x38)
  | .vif40VolumeFlow _ _ => some (0x78, 0x40)
  | .vif48VolumeFlow _ _ => some (0x78, 0x48)
  | .vif50MassFlow _ _ => some (0x78, 0x50)
  | .vif58FlowTemperature _ _ => some (0x7C, 0x58)
  | .vif5CReturnTemperature _ _ => some (0x7C, 0x5C)
  | .vif60TemperatureDifference _ _ => some (0x7C, 0x60)
  | .vif64ExternalTemperature _ _ => some (0x7C, 0x64)
  | .vif68Pressure _ _ => some (0x7C, 0x68)
  | .vif6CTimePoint _ => some (0x7F, 0x6C)
  | .vif6DTimePoint _ => some (0x7F, 0x6D)
  | .vif6EHcaUnits _ => some (0x7F, 0x6E)
  | .vif6FReserved _ => some (0x7F, 0x6F)
  | .vif70AveragingDuration _ _ => some (0x7C, 0x70)
  | .vif74ActualityDuration _ _ => some (0x7C, 0x74)
  | .vif78FabricationNo _ => some (0x7F, 0x78)
  | .vif79EnhancedId _ => some (0x7F, 0x79)
  | .vif7ABusAddress _ => some (0x7F, 0x7A)
  | .vif7BExtTableFB _ => some (0x7F, 0x7B)
  | .vif7CPlainText _ => some (0x7F, 0x7C)
  | .vif7DExtTableFD _ => some (0x7F, 0x7D)
  | .vif7EAnyVif _ => some (0x7F, 0x7E)
  | .vif7FMfrSpecific _ => some (0x7F, 0x7F)

/-- The first byte of the encoding belongs to the instruction's row. -/
def MatchesRow.Statement (i : Instr) : Prop :=
  ∀ (port : Port) (b : Byte) (rest : List Byte) (mask value : Byte),
    encode i = some (port, b :: rest) → tableRow i = some (mask, value) → b &&& mask = value

/-- From a condition on the row's own byte. -/
theorem MatchesRow.of_byte {i : Instr} {port : Port} {b : Byte} {rest : List Byte} {mask value : Byte}
    (he : encode i = some (port, b :: rest)) (hr : tableRow i = some (mask, value)) (h : b &&& mask = value) :
    MatchesRow.Statement i := by
  intro port' b' rest' mask' value' he' hr'
  rw [he] at he'; rw [hr] at hr'
  cases he'; cases hr'; exact h

/-- A row that gives no mask and match asks nothing. -/
theorem MatchesRow.of_none {i : Instr} (hr : tableRow i = none) : MatchesRow.Statement i := by
  intro port b rest mask value _ hr'; rw [hr] at hr'; cases hr'

theorem MatchesRow.frameAck : MatchesRow.Statement .frameAck := MatchesRow.of_byte rfl rfl (by decide)

theorem MatchesRow.frameShort (c : Byte) (a : Byte) : MatchesRow.Statement (.frameShort c a) := MatchesRow.of_byte rfl rfl (by decide)

theorem MatchesRow.frameControl (c : Byte) (a : Byte) (ci : Byte) : MatchesRow.Statement (.frameControl c a ci) := MatchesRow.of_byte rfl rfl (by decide)

theorem MatchesRow.frameLong (c : Byte) (a : Byte) (ci : Byte) (payload : List Byte) : MatchesRow.Statement (.frameLong c a ci payload) := MatchesRow.of_byte rfl rfl (by decide)

theorem MatchesRow.rxHuntAck : MatchesRow.Statement .rxHuntAck := MatchesRow.of_byte rfl rfl (by decide)

theorem MatchesRow.rxHuntStartShort : MatchesRow.Statement .rxHuntStartShort := MatchesRow.of_byte rfl rfl (by decide)

theorem MatchesRow.rxHuntStartLong : MatchesRow.Statement .rxHuntStartLong := MatchesRow.of_byte rfl rfl (by decide)

theorem MatchesRow.rxHuntOther (b : Byte) : MatchesRow.Statement (.rxHuntOther b) := MatchesRow.of_none rfl

theorem MatchesRow.rxShortBody (b : Byte) : MatchesRow.Statement (.rxShortBody b) := MatchesRow.of_none rfl

theorem MatchesRow.rxShortStop (b : Byte) : MatchesRow.Statement (.rxShortStop b) := MatchesRow.of_none rfl

theorem MatchesRow.rxLongBody (b : Byte) : MatchesRow.Statement (.rxLongBody b) := MatchesRow.of_none rfl

theorem MatchesRow.rxLongStop (b : Byte) : MatchesRow.Statement (.rxLongStop b) := MatchesRow.of_none rfl

theorem MatchesRow.rxByte (b : Byte) : MatchesRow.Statement (.rxByte b) := MatchesRow.of_none rfl

theorem MatchesRow.txStart (req : TxReq) : MatchesRow.Statement (.txStart req) := MatchesRow.of_none rfl

theorem MatchesRow.txStep : MatchesRow.Statement .txStep := MatchesRow.of_none rfl

theorem MatchesRow.reset : MatchesRow.Statement .reset := MatchesRow.of_none rfl

theorem MatchesRow.rxFlush : MatchesRow.Statement .rxFlush := MatchesRow.of_none rfl

theorem MatchesRow.hostRead (r : Reg) : MatchesRow.Statement (.hostRead r) := MatchesRow.of_none rfl

theorem MatchesRow.recHeader (p : List Byte) (i : Nat) : MatchesRow.Statement (.recHeader p i) := MatchesRow.of_none rfl

theorem MatchesRow.recScan (p : List Byte) (off : Nat) : MatchesRow.Statement (.recScan p off) := MatchesRow.of_none rfl

theorem MatchesRow.difLookup (code : BitVec 4) : MatchesRow.Statement (.difLookup code) := MatchesRow.of_none rfl

theorem MatchesRow.difFields (dif : Byte) : MatchesRow.Statement (.difFields dif) := MatchesRow.of_none rfl

theorem MatchesRow.difeAcc (dif : Byte) (difes : List Byte) : MatchesRow.Statement (.difeAcc dif difes) := MatchesRow.of_none rfl

theorem MatchesRow.vifLookup (vif : Byte) (vifes : List Byte) : MatchesRow.Statement (.vifLookup vif vifes) := MatchesRow.of_none rfl

theorem MatchesRow.extract (layout : Layout) (d : List Byte) : MatchesRow.Statement (.extract layout d) := MatchesRow.of_none rfl

theorem MatchesRow.recDecode (p : List Byte) (r : Record) : MatchesRow.Statement (.recDecode p r) := MatchesRow.of_none rfl

theorem MatchesRow.feed (bs : List Byte) : MatchesRow.Statement (.feed bs) := MatchesRow.of_none rfl

theorem MatchesRow.decode (buf : List Byte) : MatchesRow.Statement (.decode buf) := MatchesRow.of_none rfl

theorem MatchesRow.encode (req : TxReq) : MatchesRow.Statement (.encode req) := MatchesRow.of_none rfl

theorem MatchesRow.send (req : TxReq) : MatchesRow.Statement (.send req) := MatchesRow.of_none rfl

theorem MatchesRow.dif (e : BitVec 1) (s : BitVec 1) (f : BitVec 2) (d : BitVec 4) : MatchesRow.Statement (.dif e s f d) := MatchesRow.of_none rfl

theorem MatchesRow.dife (e : BitVec 1) (u : BitVec 1) (t : BitVec 2) (s : BitVec 4) : MatchesRow.Statement (.dife e u t s) := MatchesRow.of_none rfl

theorem MatchesRow.vif (e : BitVec 1) (c : BitVec 7) : MatchesRow.Statement (.vif e c) := MatchesRow.of_none rfl

theorem MatchesRow.vife (e : BitVec 1) (c : BitVec 7) : MatchesRow.Statement (.vife e c) := MatchesRow.of_none rfl

theorem MatchesRow.lvar (v : Byte) : MatchesRow.Statement (.lvar v) := MatchesRow.of_none rfl

theorem MatchesRow.difFuncInstantaneous (e : BitVec 1) (s : BitVec 1) (d : BitVec 4) : MatchesRow.Statement (.difFuncInstantaneous e s d) :=
  MatchesRow.of_byte rfl rfl (by revert e s d; decide)

theorem MatchesRow.difFuncMaximum (e : BitVec 1) (s : BitVec 1) (d : BitVec 4) : MatchesRow.Statement (.difFuncMaximum e s d) :=
  MatchesRow.of_byte rfl rfl (by revert e s d; decide)

theorem MatchesRow.difFuncMinimum (e : BitVec 1) (s : BitVec 1) (d : BitVec 4) : MatchesRow.Statement (.difFuncMinimum e s d) :=
  MatchesRow.of_byte rfl rfl (by revert e s d; decide)

theorem MatchesRow.difFuncError (e : BitVec 1) (s : BitVec 1) (d : BitVec 4) : MatchesRow.Statement (.difFuncError e s d) :=
  MatchesRow.of_byte rfl rfl (by revert e s d; decide)

theorem MatchesRow.difData0NoData (e : BitVec 1) (s : BitVec 1) (f : BitVec 2) : MatchesRow.Statement (.difData0NoData e s f) :=
  MatchesRow.of_byte rfl rfl (by revert e s f; decide)

theorem MatchesRow.difData1Int1 (e : BitVec 1) (s : BitVec 1) (f : BitVec 2) : MatchesRow.Statement (.difData1Int1 e s f) :=
  MatchesRow.of_byte rfl rfl (by revert e s f; decide)

theorem MatchesRow.difData2Int2 (e : BitVec 1) (s : BitVec 1) (f : BitVec 2) : MatchesRow.Statement (.difData2Int2 e s f) :=
  MatchesRow.of_byte rfl rfl (by revert e s f; decide)

theorem MatchesRow.difData3Int3 (e : BitVec 1) (s : BitVec 1) (f : BitVec 2) : MatchesRow.Statement (.difData3Int3 e s f) :=
  MatchesRow.of_byte rfl rfl (by revert e s f; decide)

theorem MatchesRow.difData4Int4 (e : BitVec 1) (s : BitVec 1) (f : BitVec 2) : MatchesRow.Statement (.difData4Int4 e s f) :=
  MatchesRow.of_byte rfl rfl (by revert e s f; decide)

theorem MatchesRow.difData5Real32 (e : BitVec 1) (s : BitVec 1) (f : BitVec 2) : MatchesRow.Statement (.difData5Real32 e s f) :=
  MatchesRow.of_byte rfl rfl (by revert e s f; decide)

theorem MatchesRow.difData6Int6 (e : BitVec 1) (s : BitVec 1) (f : BitVec 2) : MatchesRow.Statement (.difData6Int6 e s f) :=
  MatchesRow.of_byte rfl rfl (by revert e s f; decide)

theorem MatchesRow.difData7Int8 (e : BitVec 1) (s : BitVec 1) (f : BitVec 2) : MatchesRow.Statement (.difData7Int8 e s f) :=
  MatchesRow.of_byte rfl rfl (by revert e s f; decide)

theorem MatchesRow.difData8Selection (e : BitVec 1) (s : BitVec 1) (f : BitVec 2) : MatchesRow.Statement (.difData8Selection e s f) :=
  MatchesRow.of_byte rfl rfl (by revert e s f; decide)

theorem MatchesRow.difData9Bcd2 (e : BitVec 1) (s : BitVec 1) (f : BitVec 2) : MatchesRow.Statement (.difData9Bcd2 e s f) :=
  MatchesRow.of_byte rfl rfl (by revert e s f; decide)

theorem MatchesRow.difDataABcd4 (e : BitVec 1) (s : BitVec 1) (f : BitVec 2) : MatchesRow.Statement (.difDataABcd4 e s f) :=
  MatchesRow.of_byte rfl rfl (by revert e s f; decide)

theorem MatchesRow.difDataBBcd6 (e : BitVec 1) (s : BitVec 1) (f : BitVec 2) : MatchesRow.Statement (.difDataBBcd6 e s f) :=
  MatchesRow.of_byte rfl rfl (by revert e s f; decide)

theorem MatchesRow.difDataCBcd8 (e : BitVec 1) (s : BitVec 1) (f : BitVec 2) : MatchesRow.Statement (.difDataCBcd8 e s f) :=
  MatchesRow.of_byte rfl rfl (by revert e s f; decide)

theorem MatchesRow.difDataDVarLen (e : BitVec 1) (s : BitVec 1) (f : BitVec 2) : MatchesRow.Statement (.difDataDVarLen e s f) :=
  MatchesRow.of_byte rfl rfl (by revert e s f; decide)

theorem MatchesRow.difDataEBcd12 (e : BitVec 1) (s : BitVec 1) (f : BitVec 2) : MatchesRow.Statement (.difDataEBcd12 e s f) :=
  MatchesRow.of_byte rfl rfl (by revert e s f; decide)

theorem MatchesRow.difDataFSpecial (e : BitVec 1) (s : BitVec 1) (f : BitVec 2) : MatchesRow.Statement (.difDataFSpecial e s f) :=
  MatchesRow.of_byte rfl rfl (by revert e s f; decide)

theorem MatchesRow.difMfrTail (tail : List Byte) : MatchesRow.Statement (.difMfrTail tail) := MatchesRow.of_byte rfl rfl (by decide)

theorem MatchesRow.difMfrTailMore (tail : List Byte) : MatchesRow.Statement (.difMfrTailMore tail) := MatchesRow.of_byte rfl rfl (by decide)

theorem MatchesRow.difFiller : MatchesRow.Statement .difFiller := MatchesRow.of_byte rfl rfl (by decide)

theorem MatchesRow.difSpecialOther (b : Byte) : MatchesRow.Statement (.difSpecialOther b) := MatchesRow.of_none rfl

theorem MatchesRow.vif00Energy (e : BitVec 1) (n : BitVec 3) : MatchesRow.Statement (.vif00Energy e n) :=
  MatchesRow.of_byte rfl rfl (by revert e n; decide)

theorem MatchesRow.vif08Energy (e : BitVec 1) (n : BitVec 3) : MatchesRow.Statement (.vif08Energy e n) :=
  MatchesRow.of_byte rfl rfl (by revert e n; decide)

theorem MatchesRow.vif10Volume (e : BitVec 1) (n : BitVec 3) : MatchesRow.Statement (.vif10Volume e n) :=
  MatchesRow.of_byte rfl rfl (by revert e n; decide)

theorem MatchesRow.vif18Mass (e : BitVec 1) (n : BitVec 3) : MatchesRow.Statement (.vif18Mass e n) :=
  MatchesRow.of_byte rfl rfl (by revert e n; decide)

theorem MatchesRow.vif20OnTime (e : BitVec 1) (n : BitVec 2) : MatchesRow.Statement (.vif20OnTime e n) :=
  MatchesRow.of_byte rfl rfl (by revert e n; decide)

theorem MatchesRow.vif24OperatingTime (e : BitVec 1) (n : BitVec 2) : MatchesRow.Statement (.vif24OperatingTime e n) :=
  MatchesRow.of_byte rfl rfl (by revert e n; decide)

theorem MatchesRow.vif28Power (e : BitVec 1) (n : BitVec 3) : MatchesRow.Statement (.vif28Power e n) :=
  MatchesRow.of_byte rfl rfl (by revert e n; decide)

theorem MatchesRow.vif30Power (e : BitVec 1) (n : BitVec 3) : MatchesRow.Statement (.vif30Power e n) :=
  MatchesRow.of_byte rfl rfl (by revert e n; decide)

theorem MatchesRow.vif38VolumeFlow (e : BitVec 1) (n : BitVec 3) : MatchesRow.Statement (.vif38VolumeFlow e n) :=
  MatchesRow.of_byte rfl rfl (by revert e n; decide)

theorem MatchesRow.vif40VolumeFlow (e : BitVec 1) (n : BitVec 3) : MatchesRow.Statement (.vif40VolumeFlow e n) :=
  MatchesRow.of_byte rfl rfl (by revert e n; decide)

theorem MatchesRow.vif48VolumeFlow (e : BitVec 1) (n : BitVec 3) : MatchesRow.Statement (.vif48VolumeFlow e n) :=
  MatchesRow.of_byte rfl rfl (by revert e n; decide)

theorem MatchesRow.vif50MassFlow (e : BitVec 1) (n : BitVec 3) : MatchesRow.Statement (.vif50MassFlow e n) :=
  MatchesRow.of_byte rfl rfl (by revert e n; decide)

theorem MatchesRow.vif58FlowTemperature (e : BitVec 1) (n : BitVec 2) : MatchesRow.Statement (.vif58FlowTemperature e n) :=
  MatchesRow.of_byte rfl rfl (by revert e n; decide)

theorem MatchesRow.vif5CReturnTemperature (e : BitVec 1) (n : BitVec 2) : MatchesRow.Statement (.vif5CReturnTemperature e n) :=
  MatchesRow.of_byte rfl rfl (by revert e n; decide)

theorem MatchesRow.vif60TemperatureDifference (e : BitVec 1) (n : BitVec 2) : MatchesRow.Statement (.vif60TemperatureDifference e n) :=
  MatchesRow.of_byte rfl rfl (by revert e n; decide)

theorem MatchesRow.vif64ExternalTemperature (e : BitVec 1) (n : BitVec 2) : MatchesRow.Statement (.vif64ExternalTemperature e n) :=
  MatchesRow.of_byte rfl rfl (by revert e n; decide)

theorem MatchesRow.vif68Pressure (e : BitVec 1) (n : BitVec 2) : MatchesRow.Statement (.vif68Pressure e n) :=
  MatchesRow.of_byte rfl rfl (by revert e n; decide)

theorem MatchesRow.vif6CTimePoint (e : BitVec 1) : MatchesRow.Statement (.vif6CTimePoint e) :=
  MatchesRow.of_byte rfl rfl (by revert e; decide)

theorem MatchesRow.vif6DTimePoint (e : BitVec 1) : MatchesRow.Statement (.vif6DTimePoint e) :=
  MatchesRow.of_byte rfl rfl (by revert e; decide)

theorem MatchesRow.vif6EHcaUnits (e : BitVec 1) : MatchesRow.Statement (.vif6EHcaUnits e) :=
  MatchesRow.of_byte rfl rfl (by revert e; decide)

theorem MatchesRow.vif6FReserved (e : BitVec 1) : MatchesRow.Statement (.vif6FReserved e) :=
  MatchesRow.of_byte rfl rfl (by revert e; decide)

theorem MatchesRow.vif70AveragingDuration (e : BitVec 1) (n : BitVec 2) : MatchesRow.Statement (.vif70AveragingDuration e n) :=
  MatchesRow.of_byte rfl rfl (by revert e n; decide)

theorem MatchesRow.vif74ActualityDuration (e : BitVec 1) (n : BitVec 2) : MatchesRow.Statement (.vif74ActualityDuration e n) :=
  MatchesRow.of_byte rfl rfl (by revert e n; decide)

theorem MatchesRow.vif78FabricationNo (e : BitVec 1) : MatchesRow.Statement (.vif78FabricationNo e) :=
  MatchesRow.of_byte rfl rfl (by revert e; decide)

theorem MatchesRow.vif79EnhancedId (e : BitVec 1) : MatchesRow.Statement (.vif79EnhancedId e) :=
  MatchesRow.of_byte rfl rfl (by revert e; decide)

theorem MatchesRow.vif7ABusAddress (e : BitVec 1) : MatchesRow.Statement (.vif7ABusAddress e) :=
  MatchesRow.of_byte rfl rfl (by revert e; decide)

theorem MatchesRow.vif7BExtTableFB (e : BitVec 1) : MatchesRow.Statement (.vif7BExtTableFB e) :=
  MatchesRow.of_byte rfl rfl (by revert e; decide)

theorem MatchesRow.vif7CPlainText (e : BitVec 1) : MatchesRow.Statement (.vif7CPlainText e) :=
  MatchesRow.of_byte rfl rfl (by revert e; decide)

theorem MatchesRow.vif7DExtTableFD (e : BitVec 1) : MatchesRow.Statement (.vif7DExtTableFD e) :=
  MatchesRow.of_byte rfl rfl (by revert e; decide)

theorem MatchesRow.vif7EAnyVif (e : BitVec 1) : MatchesRow.Statement (.vif7EAnyVif e) :=
  MatchesRow.of_byte rfl rfl (by revert e; decide)

theorem MatchesRow.vif7FMfrSpecific (e : BitVec 1) : MatchesRow.Statement (.vif7FMfrSpecific e) :=
  MatchesRow.of_byte rfl rfl (by revert e; decide)

end Sys2Proof.Laws
end

