-- ==== Sys2Proof/Laws/Receive.lean ====
section
/-! SUPPORT. What a receive step does, said once: its verdicts, what it stores, and what it keeps (40_rx_framer.md R111 to R125). -/

namespace Sys2Proof.Machine

/-- Error entry on the block is the verdict the spec writes out (60_exceptions.md R280). -/
theorem applyRx_raiseError (s : State) (k : RxError) (n : Nat) (v : Byte) :
    applyRx s (raiseError k n v s.rx s.res) = errorVerdict s k n v := by
  cases k <;> rfl

/-- Success completion on the block is the verdict the spec writes out (60_exceptions.md R281). -/
theorem applyRx_completeFrame (s : State) (f : Frame) (n : Nat) :
    applyRx s (completeFrame f n s.rx s.res) = goodVerdict s f n := by
  cases f <;> rfl

/-- A range read, element by element. -/
theorem readRange_map (m : Memory) (n : Nat) : ∀ a, m.readRange a n = (List.range n).map fun k => m.read (a + k) := by
  intro a
  apply List.ext_getElem?
  intro k
  by_cases hk : k < n
  · rw [Memory.getElem?_readRange _ _ _ _ hk]; simp [hk]
  · rw [List.getElem?_eq_none (by simpa using hk), List.getElem?_eq_none (by simpa using hk)]

/-- A receive step gives no verdict, a failed one or a good one, and which it can be in each state. -/
theorem rxStep_verdict {b : Byte} {rx : Rx} {res : Res} {o : RxOut} (h : rxStep b rx res = some o) :
    (o.event = none ∧ o.res = res ∧ o.rx.state ≠ .hunt)
    ∨ (∃ k n v, o = raiseError k n v rx res
        ∧ ((rx.state = .hunt ∧ k = .framingError ∧ n = 1 ∧ v = b)
          ∨ (rx.state = .short ∧ rx.cnt = 4 ∧ k ≠ .framingError ∧ n = 5)
          ∨ (rx.state = .long ∧ 2 ≤ rx.cnt ∧ rx.cnt = rx.l1.toNat + 5 ∧ k ≠ .framingError ∧ n = rx.l1.toNat + 6)))
    ∨ (∃ f n, o = completeFrame f n rx res
        ∧ ((rx.state = .hunt ∧ f = .ack ∧ n = 1)
          ∨ (rx.state = .short ∧ rx.cnt = 4 ∧ f = .short (rx.body.read 0) (rx.body.read 1) ∧ n = 5)
          ∨ (rx.state = .long ∧ rx.cnt = 8 ∧ rx.l1.toNat = 3
              ∧ f = .control (rx.body.read 0) (rx.body.read 1) (rx.body.read 2) ∧ n = 9)
          ∨ (rx.state = .long ∧ rx.cnt = rx.l1.toNat + 5 ∧ 3 < rx.l1.toNat ∧ n = rx.l1.toNat + 6
              ∧ f = .long (rx.body.read 0) (rx.body.read 1) (rx.body.read 2)
                  (rx.body.readRange 3 (rx.l1.toNat - 3))))) := by
  rcases rxStep_cases h with ⟨h', rfl⟩ | ⟨h', h1, h2, rfl⟩ | ⟨h', hc, rfl⟩ | ⟨h', hc, rfl⟩ | ⟨h', h1, h2, rfl⟩
  · simp only [rxHunt]
    split
    · exact .inr (.inr ⟨_, _, rfl, .inl ⟨h', rfl, rfl⟩⟩)
    · split
      · exact .inl ⟨rfl, rfl, by simp [rxStart]⟩
      · split
        · exact .inl ⟨rfl, rfl, by simp [rxStart]⟩
        · exact .inr (.inl ⟨_, _, _, rfl, .inl ⟨h', rfl, rfl, rfl⟩⟩)
  · refine .inl ⟨rfl, rfl, ?_⟩
    simp only [Machine.rxShortBody]; repeat' split
    all_goals simp [h']
  · simp only [Machine.rxShortStop]
    split
    · exact .inr (.inl ⟨_, _, _, rfl, .inr (.inl ⟨h', hc, by simp, rfl⟩)⟩)
    · split
      · exact .inr (.inl ⟨_, _, _, rfl, .inr (.inl ⟨h', hc, by simp, rfl⟩)⟩)
      · exact .inr (.inr ⟨_, _, rfl, .inr (.inl ⟨h', hc, rfl, rfl⟩)⟩)
  · refine .inl ⟨rfl, rfl, ?_⟩
    simp only [Machine.rxLongBody]; repeat' split
    all_goals simp [h']
  · simp only [Machine.rxLongStop]
    have hl : lMin = 3 := rfl
    by_cases c1 : rx.l2 ≠ rx.l1
    · rw [if_pos c1]; exact .inr (.inl ⟨_, _, _, rfl, .inr (.inr ⟨h', h1, h2, by simp, rfl⟩)⟩)
    rw [if_neg c1]
    by_cases c1 : rx.s2 ≠ startLong
    · rw [if_pos c1]; exact .inr (.inl ⟨_, _, _, rfl, .inr (.inr ⟨h', h1, h2, by simp, rfl⟩)⟩)
    rw [if_neg c1]
    by_cases c1 : rx.l1.toNat < lMin
    · rw [if_pos c1]; exact .inr (.inl ⟨_, _, _, rfl, .inr (.inr ⟨h', h1, h2, by simp, rfl⟩)⟩)
    rw [if_neg c1]
    by_cases c2 : b ≠ stopByte
    · rw [if_pos c2]; exact .inr (.inl ⟨_, _, _, rfl, .inr (.inr ⟨h', h1, h2, by simp, rfl⟩)⟩)
    rw [if_neg c2]
    by_cases c2 : rx.cs ≠ rx.sum
    · rw [if_pos c2]; exact .inr (.inl ⟨_, _, _, rfl, .inr (.inr ⟨h', h1, h2, by simp, rfl⟩)⟩)
    rw [if_neg c2]
    by_cases h3 : rx.l1.toNat = lMin
    · rw [if_pos h3]
      exact .inr (.inr ⟨_, _, rfl, .inr (.inr (.inl ⟨h', by omega, h3, rfl, rfl⟩))⟩)
    · rw [if_neg h3]
      exact .inr (.inr ⟨_, _, rfl, .inr (.inr (.inr ⟨h', h2, by omega, rfl, rfl⟩))⟩)

/-- A receive step's event is one of the receive path (60_exceptions.md R270). -/
theorem rxStep_event_fromRx {b : Byte} {rx : Rx} {res : Res} {o : RxOut} (h : rxStep b rx res = some o) :
    ∀ e ∈ o.event.toList, e.fromRx = true := by
  rcases rxStep_verdict h with ⟨h, -, -⟩ | ⟨k, n, v, rfl, -⟩ | ⟨f, n, rfl, -⟩
  · simp [h]
  · simp [raiseError, Event.fromRx]
  · simp [completeFrame, Event.fromRx]

/-- A receive step keeps the sequencing registers in their range (40_rx_framer.md R125 (a), (b)). -/
theorem rxStep_seqOk {b : Byte} {rx : Rx} {res : Res} {o : RxOut} (h : rxStep b rx res = some o) : RxSeqOk o.rx := by
  rcases rxStep_cases h with ⟨h', rfl⟩ | ⟨h', h1, h2, rfl⟩ | ⟨h', hc, rfl⟩ | ⟨h', hc, rfl⟩ | ⟨h', h1, h2, rfl⟩
  · simp only [rxHunt]; repeat' split
    all_goals simp [RxSeqOk, completeFrame, rxStart, raiseError]
  · simp only [Machine.rxShortBody]; repeat' split
    all_goals simp [RxSeqOk, h']; try omega
  · simp only [Machine.rxShortStop]; repeat' split
    all_goals simp [RxSeqOk, completeFrame, raiseError]
  · simp only [Machine.rxLongBody]
    by_cases c1 : rx.cnt = 1
    · simp [c1, RxSeqOk, h']
    · rw [if_neg c1]
      by_cases c2 : rx.cnt = 2
      · simp [c2, RxSeqOk, h']
      · rw [if_neg c2]
        by_cases c3 : rx.cnt = 3
        · simp [c3, RxSeqOk, h']; try omega
        · rw [if_neg c3]; split <;> simp [RxSeqOk, h'] <;> omega
  · simp only [Machine.rxLongStop]; repeat' split
    all_goals simp [RxSeqOk, completeFrame, raiseError]

/-- `sum8` of two sequences in order. -/
theorem sum8_append (xs ys : List Byte) : sum8 (xs ++ ys) = sum8 xs + sum8 ys := by
  induction xs with
  | nil => simp [sum8]
  | cons x xs ih => simp [sum8, ih, BitVec.add_assoc]

/-- `sum8` of one byte. -/
theorem sum8_singleton (b : Byte) : sum8 [b] = b := by simp [sum8]

/-- Writing the next element extends the range read by it. -/
theorem readRange_write_next {m : Memory} (hm : m.wf) (k : Nat) (b : Byte) :
    (m.write k b).readRange 0 (k + 1) = m.readRange 0 k ++ [b] := by
  rw [Memory.readRange_succ]
  congr 1
  · apply Memory.readRange_congr
    intro j _ hj
    exact Memory.read_write_other _ _ _ _ (by omega)
  · rw [show 0 + k = k by omega, Memory.read_write_same _ _ _ hm]

/-- A receive step keeps the running sum right (40_rx_framer.md R125 (c)). -/
theorem rxStep_sumOk {b : Byte} {rx : Rx} {res : Res} {o : RxOut} (hw : rx.body.wf) (hsum : SumOk rx)
    (h : rxStep b rx res = some o) : SumOk o.rx := by
  rcases rxStep_cases h with ⟨h', rfl⟩ | ⟨h', h1, h2, rfl⟩ | ⟨h', hc, rfl⟩ | ⟨h', hc, rfl⟩ | ⟨h', h1, h2, rfl⟩
  · simp only [rxHunt]; repeat' split
    all_goals simp [SumOk, completeFrame, rxStart, raiseError, Memory.readRange, sum8]
  · have hsm := hsum.1 h'
    simp only [Machine.rxShortBody]
    by_cases c1 : rx.cnt = 1
    · simp only [c1, if_true, SumOk, h']
      simp only [reduceCtorEq, false_imp_iff, and_true, forall_const]
      simp [c1, Memory.readRange, sum8] at hsm
      simp [Memory.readRange, sum8, Memory.read_write_same _ _ _ hw, hsm]
    · by_cases c2 : rx.cnt = 2
      · have := readRange_write_next hw 1 b
        simp [c2, SumOk, h']
        simp only [c2] at hsm
        rw [this, sum8_append, sum8_singleton, hsm]; rfl
      · have c3 : rx.cnt = 3 := by omega
        simp [c3, SumOk, h'] at hsm ⊢
        exact hsm
  · simp only [Machine.rxShortStop]; repeat' split
    all_goals simp [SumOk, completeFrame, raiseError]
  · simp only [Machine.rxLongBody]
    by_cases c1 : rx.cnt = 1
    · have := hsum.2.2 h' (by omega)
      simp [c1, SumOk, h', this]
    by_cases c2 : rx.cnt = 2
    · have := hsum.2.2 h' (by omega)
      simp [c2, SumOk, h', this]
    by_cases c3 : rx.cnt = 3
    · have := hsum.2.2 h' (by omega)
      simp [c3, SumOk, h', this, Memory.readRange, sum8]
    have hsm := hsum.2.1 h' (by omega)
    by_cases c4 : rx.cnt ≤ rx.l1.toNat + 3
    · simp only [c1, c2, c3, if_false, SumOk]
      rw [if_pos c4]
      simp only [h', reduceCtorEq, false_imp_iff, true_and, forall_const]
      refine ⟨fun _ => ?_, fun h => by omega⟩
      obtain ⟨k, hk⟩ : ∃ k, rx.cnt = k + 4 := ⟨rx.cnt - 4, by omega⟩
      rw [show min (rx.cnt + 1 - 4) rx.l1.toNat = k + 1 by omega, show rx.cnt - 4 = k by omega, readRange_write_next hw,
        sum8_append, sum8_singleton, hsm, show min (rx.cnt - 4) rx.l1.toNat = k by omega]
    · simp only [c1, c2, c3, if_false, SumOk]
      rw [if_neg c4]
      simp only [h', reduceCtorEq, false_imp_iff, true_and, forall_const]
      refine ⟨fun _ => ?_, fun h => by omega⟩
      rw [hsm]; congr 2; omega
  · simp only [Machine.rxLongStop]; repeat' split
    all_goals simp [SumOk, completeFrame, raiseError]

/-- A receive step stores at most its byte, to the element its position names (40_rx_framer.md R114, R116). -/
theorem rxStep_body {b : Byte} {rx : Rx} {res : Res} {o : RxOut} (h : rxStep b rx res = some o) :
    o.rx.body = rx.body ∨ ∃ a, bodyIndex rx = some a ∧ o.rx.body = rx.body.write a b := by
  rcases rxStep_cases h with ⟨h', rfl⟩ | ⟨h', h1, h2, rfl⟩ | ⟨h', hc, rfl⟩ | ⟨h', hc, rfl⟩ | ⟨h', h1, h2, rfl⟩
  · left; simp only [rxHunt]; repeat' split
    all_goals simp [completeFrame, rxStart, raiseError]
  · simp only [Machine.rxShortBody, bodyIndex, h']
    by_cases c1 : rx.cnt = 1
    · simp [c1]
    · by_cases c2 : rx.cnt = 2
      · simp [c2]
      · simp [c1, c2]
  · left; simp only [Machine.rxShortStop]; repeat' split
    all_goals simp [completeFrame, raiseError]
  · simp only [Machine.rxLongBody, bodyIndex, h']
    by_cases c1 : rx.cnt = 1
    · simp [c1]
    by_cases c2 : rx.cnt = 2
    · simp [c2]
    by_cases c3 : rx.cnt = 3
    · simp [c3]
    simp only [c1, c2, c3, if_false]
    by_cases c4 : rx.cnt ≤ rx.l1.toNat + 3
    · right; rw [if_pos c4, if_pos (show 4 ≤ rx.cnt ∧ _ from ⟨by omega, c4⟩)]
      exact ⟨_, rfl, rfl⟩
    · left; rw [if_neg c4]
  · left; simp only [Machine.rxLongStop]; repeat' split
    all_goals simp [completeFrame, raiseError]

/-- Every position of a frame in progress names an element inside `rx_body` (10_state.md R30). -/
theorem bodyIndex_lt {rx : Rx} {a : Nat} (h : bodyIndex rx = some a) : a < 255 := by
  unfold bodyIndex at h
  have := rx.l1.isLt
  cases hs : rx.state <;> rw [hs] at h
  · simp at h
  · simp only at h; split at h
    · simp at h; omega
    · split at h
      · simp at h; omega
      · simp at h
  · simp only at h; split at h
    · simp at h; omega
    · simp at h

/-- A receive step keeps the canonical form of `rx_body`. -/
theorem rxStep_body_wf {b : Byte} {rx : Rx} {res : Res} {o : RxOut} (hw : rx.body.wf) (h : rxStep b rx res = some o) : o.rx.body.wf := by
  rcases rxStep_body h with h | ⟨a, -, h⟩ <;> rw [h]
  · exact hw
  · exact Memory.wf_write _ _ hw

/-- A receive step keeps the receive path in a reachable form. -/
theorem rxStep_rxOk {b : Byte} {rx : Rx} {res : Res} {o : RxOut} (hs : RxOk rx) (h : rxStep b rx res = some o) : RxOk o.rx := by
  refine ⟨rxStep_seqOk h, rxStep_sumOk hs.2.2.1 hs.2.1 h, rxStep_body_wf hs.2.2.1 h, ?_⟩
  rcases rxStep_body h with h | ⟨a, ha, h⟩ <;> rw [h]
  · exact hs.2.2.2
  · exact Memory.within_write _ hs.2.2.2 (bodyIndex_lt ha)

/-- A receive step keeps the result registers at legal values (10_state.md R32). -/
theorem rxStep_resOk {b : Byte} {rx : Rx} {res : Res} {o : RxOut} (hs : RxSeqOk rx) (hr : ResOk res)
    (h : rxStep b rx res = some o) : ResOk o.res := by
  obtain ⟨h1, h2, h3, h4, h5, h6⟩ := hr
  have := rx.l1.isLt
  rcases rxStep_verdict h with ⟨-, h, -⟩ | ⟨k, n, v, rfl, hk⟩ | ⟨f, n, rfl, hf⟩
  · rw [h]; exact ⟨h1, h2, h3, h4, h5, h6⟩
  · refine ⟨?_, ?_, ?_, h4, h5, h6⟩
    · cases k <;> simp [raiseError, rxErrorCode]
    · simp only [raiseError]; grind
    · simp only [raiseError]; grind
  · rcases hf with ⟨h1, rfl, rfl⟩ | ⟨h1, h2, rfl, rfl⟩ | ⟨h1, h2, h3, rfl, rfl⟩ | ⟨h1, h2, h3, rfl, rfl⟩
    · exact ⟨by simp [completeFrame, recordFrame], by simp [completeFrame, recordFrame],
        by simp [completeFrame, recordFrame], by simp [completeFrame, recordFrame],
        by simp [completeFrame, recordFrame], h6⟩
    · exact ⟨by simp [completeFrame, recordFrame], by simp [completeFrame, recordFrame],
        by simp [completeFrame, recordFrame], by simp [completeFrame, recordFrame],
        by simp [completeFrame, recordFrame], h6⟩
    · exact ⟨by simp [completeFrame, recordFrame], by simp [completeFrame, recordFrame],
        by simp [completeFrame, recordFrame], by simp [completeFrame, recordFrame],
        by simp [completeFrame, recordFrame], h6⟩
    · refine ⟨by simp [completeFrame, recordFrame], by simp [completeFrame, recordFrame],
        by simp [completeFrame, recordFrame]; omega, by simp [completeFrame, recordFrame]; omega,
        by simp [completeFrame, recordFrame], ?_⟩
      simp only [completeFrame, recordFrame]
      exact ⟨Memory.wf_writeRange _ _ h6.1, Memory.within_writeRange _ _ h6.2 (by simp [spaceSize]; omega)⟩

end Sys2Proof.Machine
end

