-- ==== Sys2Proof/Laws/Rom.lean ====
section
/-! SUPPORT. What the lookups of the open parameters give (00_scope.md R9; 43_dif_vif_rom.md R211, R221). -/

namespace Sys2Proof.Machine

/-- The first row of a list of pairs for single layouts decides. -/
theorem find_only (f : Layout → Sentinels) (ls : List Layout) (more : List NoValueRow) (layout : Layout)
    (h : layout ∈ ls) :
    ((ls.map fun l => NoValueRow.mk (.only l) (f l)) ++ more).find? (fun r => namesLayout r.key layout)
      = some ⟨.only layout, f layout⟩ := by
  induction ls with
  | nil => simp at h
  | cons l ls ih =>
    by_cases hl : l = layout
    · simp [namesLayout, hl]
    · have : layout ∈ ls := by simpa [Ne.symm hl] using h
      simpa [namesLayout, hl] using ih this

/-- Rows for single layouts say nothing of any other. -/
theorem find_only_none (f : Layout → Sentinels) (ls : List Layout) (more : List NoValueRow) (layout : Layout)
    (h : layout ∉ ls) :
    ((ls.map fun l => NoValueRow.mk (.only l) (f l)) ++ more).find? (fun r => namesLayout r.key layout)
      = more.find? (fun r => namesLayout r.key layout) := by
  induction ls with
  | nil => rfl
  | cons l ls ih =>
    rw [List.mem_cons, not_or] at h
    simpa [namesLayout, Ne.symm h.1] using ih h.2

/-- The layouts that are no `Bcd`, and `Bcd` up to a digit count. -/
def layoutsUpTo (digits : Nat) : List Layout :=
  [.noData, .int .w1, .int .w2, .int .w3, .int .w4, .int .w6, .int .w8, .real32, .varLen, .selection, .special]
    ++ (List.range (digits + 1)).map .bcd

/-- Every function from layouts to pairs is a `NOVALUE` of the model, as far as `Bcd` of any bounded digit count, with one
pair for every longer `Bcd` (00_scope.md R9; log 19). -/
theorem noValue_expresses_every_function (f : Layout → Sentinels) (digits : Nat) (longer : Sentinels) :
    ∃ rows : List NoValueRow, ∀ cfg : Config, cfg.noValue = rows →
      (∀ layout, (∀ n, layout = .bcd n → n ≤ digits) → sentinelsOf cfg layout = f layout)
      ∧ ∀ n, digits < n → sentinelsOf cfg (.bcd n) = longer := by
  refine ⟨((layoutsUpTo digits).map fun l => NoValueRow.mk (.only l) (f l)) ++ [⟨.everyBcd, longer⟩],
    fun cfg h => ⟨fun layout hl => ?_, fun n hn => ?_⟩⟩
  · have hm : layout ∈ layoutsUpTo digits := by
      cases layout with
      | bcd n => simpa [layoutsUpTo] using Nat.lt_succ_of_le (hl n rfl)
      | int k => cases k <;> simp [layoutsUpTo]
      | _ => simp [layoutsUpTo]
    simp only [sentinelsOf, h, find_only f _ _ layout hm]
  · have hm : Layout.bcd n ∉ layoutsUpTo digits := by simp [layoutsUpTo]; omega
    simp only [sentinelsOf, h, find_only_none f _ _ _ hm]
    rfl

/-- A configuration that meets its constraints resolves code 0x06 to an energy of kWh-class scaling and 0x13 to a volume
(43_dif_vif_rom.md R211). -/
theorem wf_confirmed_codes {cfg : Config} (h : cfg.wf = true) :
    (∃ u s, vifEntry cfg 0x06 = .known .energy u s ∧ kWhClass u s = true) ∧ ∃ u s, vifEntry cfg 0x13 = .known .volume u s := by
  simp only [Config.wf, Bool.and_eq_true] at h
  obtain ⟨⟨-, h6⟩, h13⟩ := h
  constructor
  · split at h6
    next u s he => exact ⟨u, s, he, h6⟩
    all_goals simp at h6
  · split at h13
    next u s he => exact ⟨u, s, he⟩
    all_goals simp at h13

end Sys2Proof.Machine
end

