-- ==== Sys2Proof/Laws/Scan.lean ====
section
/-! SUPPORT. What walking a record header gives (42_record_scan.md R172 to R176). -/

namespace Sys2Proof.Machine

/-- A chain of the right form inside the bound is walked whole. -/
theorem chainAfter_ok (chain : List Byte) : ∀ (first : Byte) (max : Nat) (rest : List Byte),
    chainForm first chain = true → chain.length ≤ max →
    chainAfter first max (chain ++ rest) = .ok chain rest := by
  induction chain with
  | nil =>
    intro first max rest h _
    simp only [chainForm, Bool.not_eq_true'] at h
    simp [chainAfter, h]
  | cons b bs ih =>
    intro first max rest h hl
    simp only [chainForm, Bool.and_eq_true] at h
    obtain ⟨m, rfl⟩ : ∃ m, max = m + 1 := ⟨max - 1, by simp at hl; omega⟩
    have := ih b m rest h.2 (by simpa using hl)
    simp only [chainAfter, h.1, if_true, List.cons_append, walkChain] at this ⊢
    by_cases hb : topBit b = true
    · rw [if_pos hb] at this ⊢; rw [this]
    · rw [if_neg hb] at this ⊢
      cases bs with
      | nil => simp
      | cons c cs => simp [chainForm, hb] at h

/-- A chain that asks for a byte past the end (42_record_scan.md R173, R174). -/
theorem walkChain_pastEnd (tail : List Byte) : ∀ (max : Nat),
    (∀ b ∈ tail, topBit b = true) → tail.length ≤ max → walkChain max tail = .pastEnd := by
  induction tail with
  | nil => intro max _ _; cases max <;> rfl
  | cons b bs ih =>
    intro max h hl
    obtain ⟨m, rfl⟩ : ∃ m, max = m + 1 := ⟨max - 1, by simp at hl; omega⟩
    simp only [walkChain]; rw [if_pos (h b (by simp)), ih m (fun x hx => h x (by simp [hx])) (by simpa using hl)]

/-- A chain longer than its bound (42_record_scan.md R173, R174). -/
theorem walkChain_tooLong (tail : List Byte) : ∀ (max : Nat),
    max < tail.length → (∀ b ∈ tail.take max, topBit b = true) → walkChain max tail = .tooLong := by
  induction tail with
  | nil => intro max h _; simp at h
  | cons b bs ih =>
    intro max h hl
    cases max with
    | zero => rfl
    | succ m =>
      simp only [walkChain]; rw [if_pos (hl b (by simp)), ih m (by simpa using h) (fun x hx => hl x (by simp [hx]))]

/-- The data length of a field that fits (42_record_scan.md R175). -/
theorem dataLen_of_fits {l : Layout} {data : List Byte} (rest : List Byte) (h : dataFits l data = true) :
    dataLen l (data ++ rest) = .len data.length := by
  unfold dataFits at h
  unfold dataLen
  cases hb : dataBytesOf l with
  | fixed n => rw [hb] at h; simp at h; simp [h]
  | special => rw [hb] at h; simp at h
  | onePlusLvar =>
    rw [hb] at h
    cases data with
    | nil => simp at h
    | cons v t => simp at h; simp [lvarResult, h.1, h.2]; omega

/-- What a walked chain is. -/
theorem walkChain_inv (rest : List Byte) : ∀ {max : Nat} {ch rest' : List Byte}, walkChain max rest = .ok ch rest' →
    rest = ch ++ rest' ∧ ∀ f, topBit f = true → chainForm f ch = true := by
  induction rest with
  | nil => intro max ch rest' h; cases max <;> cases h
  | cons b bs ih =>
    intro max ch rest' h
    cases max with
    | zero => cases h
    | succ m =>
      simp only [walkChain] at h
      split at h
      · rename_i hb
        split at h
        · rename_i hw; cases h
          obtain ⟨h1, h2⟩ := ih hw
          exact ⟨by rw [h1]; rfl, fun f hf => by simp [chainForm, hf, h2 b hb]⟩
        · cases h
        · cases h
      · rename_i hb; cases h
        exact ⟨rfl, fun f hf => by simp [chainForm, hf, hb]⟩

/-- What a chain after a DIF or VIF is. -/
theorem chainAfter_inv {first : Byte} {max : Nat} {rest ch rest' : List Byte} (h : chainAfter first max rest = .ok ch rest') :
    rest = ch ++ rest' ∧ chainForm first ch = true := by
  unfold chainAfter at h
  split at h
  · exact ⟨(walkChain_inv rest h).1, (walkChain_inv rest h).2 _ ‹_›⟩
  · rename_i hb; cases h; exact ⟨rfl, by simp [chainForm, hb]⟩

/-- A header is walked inside the payload only (42_record_scan.md R171). -/
theorem recHeader_inv {cfg : Config} {p : List Byte} {i : Nat} {r : HeaderResult} (h : recHeader cfg p i = some r) :
    ∃ dif rest, i < p.length ∧ p.drop i = dif :: rest ∧ r = walkHeader cfg p.length i dif rest := by
  unfold recHeader at h
  split at h
  · cases h
  · rename_i dif rest hd
    cases h
    refine ⟨dif, rest, ?_, hd, rfl⟩
    have := congrArg List.length hd; simp at this; omega

/-- How the data of a record ends the walk. -/
theorem finishRecord_inv {i j : Nat} {layout : Layout} {dif vif : Byte} {difes vifes rest : List Byte} {r : HeaderResult}
    (h : finishRecord i j layout dif difes vif vifes rest = r) :
    (∃ n, n ≤ rest.length
        ∧ r = .item (.record
            { start := i, stop := j + n, dif := dif, difes := difes, vif := vif, vifes := vifes, dataOff := j,
              dataLen := n }))
    ∨ r = .item (.malformed i) ∨ r = .item (.refused i .lvarReserved) := by
  unfold finishRecord at h
  split at h
  · exact .inr (.inl h.symm)
  · exact .inr (.inr h.symm)
  · split at h
    · exact .inr (.inl h.symm)
    · exact .inl ⟨_, by omega, h.symm⟩

/-- What `REC_HEADER` can give: a filler, a record that lies in the payload, or a final item. -/
theorem recHeader_cases {cfg : Config} {p : List Byte} {i : Nat} {r : HeaderResult} (h : recHeader cfg p i = some r) :
    (r = .filler ∧ p.getD i 0 = 0x2F ∧ i < p.length)
    ∨ (∃ rec, r = .item (.record rec) ∧ rec.start = i ∧ i < rec.stop ∧ rec.lies p = true
        ∧ difLookup cfg (dataCode rec.dif) ≠ .special ∧ vifEntry cfg (valueCode rec.vif) ≠ .plainText)
    ∨ (∃ it, r = .item it ∧ it.start = i ∧ i < p.length ∧ ∀ rec, it ≠ .record rec) := by
  obtain ⟨dif, rest, hi, hd, rfl⟩ := recHeader_inv h
  have hget : p.getD i 0 = dif := by
    have : (p.drop i)[0]? = some dif := by rw [hd]; rfl
    rw [List.getElem?_drop] at this; simp [List.getD_eq_getElem?_getD] ; simp at this; simp [this]
  simp only [walkHeader]
  split
  · simp only [specialDif]
    split
    · exact .inl ⟨rfl, by rw [hget]; assumption, hi⟩
    · split
      · exact .inr (.inr ⟨_, rfl, rfl, hi, by simp⟩)
      · split
        · exact .inr (.inr ⟨_, rfl, rfl, hi, by simp⟩)
        · exact .inr (.inr ⟨_, rfl, rfl, hi, by simp⟩)
  · rename_i hsp
    split
    · exact .inr (.inr ⟨_, rfl, rfl, hi, by simp⟩)
    · exact .inr (.inr ⟨_, rfl, rfl, hi, by simp⟩)
    · rename_i difes rest1 hc1
      obtain ⟨e1, f1⟩ := chainAfter_inv hc1
      unfold walkVif
      split
      · exact .inr (.inr ⟨_, rfl, rfl, hi, by simp⟩)
      · rename_i vif rest2
        split
        · exact .inr (.inr ⟨_, rfl, rfl, hi, by simp⟩)
        · rename_i hpt
          split
          · exact .inr (.inr ⟨_, rfl, rfl, hi, by simp⟩)
          · exact .inr (.inr ⟨_, rfl, rfl, hi, by simp⟩)
          · rename_i vifes rest3 hc2
            obtain ⟨e2, f2⟩ := chainAfter_inv hc2
            rcases finishRecord_inv (i := i) (j := i + (2 + difes.length + vifes.length))
                (layout := difLookup cfg (dataCode dif)) (dif := dif) (difes := difes) (vif := vif) (vifes := vifes)
                (rest := rest3) rfl with ⟨n, hn, he⟩ | he | he
            · refine .inr (.inl ⟨_, he, rfl, by show i < i + _ + n; omega, ?_, hsp, hpt⟩)
              have hlen := congrArg List.length hd
              rw [e1, e2] at hd hlen
              simp at hlen
              simp only [Record.lies, f1, f2, Bool.and_true, decide_eq_true_eq, true_and]
              refine ⟨?_, by omega⟩
              rw [hd, show i + (2 + difes.length + vifes.length) - i = 2 + difes.length + vifes.length by omega]
              rw [show dif :: (difes ++ vif :: (vifes ++ rest3)) = (dif :: difes ++ vif :: vifes) ++ rest3 by simp]
              exact List.take_left' (by simp; omega)
            · exact .inr (.inr ⟨_, he, rfl, hi, by simp⟩)
            · exact .inr (.inr ⟨_, he, rfl, hi, by simp⟩)

/-- Where `REC_HEADER` is defined. -/
theorem recHeader_none {cfg : Config} {p : List Byte} {i : Nat} : recHeader cfg p i = none ↔ p.length ≤ i := by
  unfold recHeader
  constructor
  · intro h; split at h
    · rename_i hd; simpa using hd
    · cases h
  · intro h; rw [List.drop_eq_nil_of_le h]

end Sys2Proof.Machine
end

