-- ==== Sys2Proof/Laws/Transmit.lean ====
section
/-! SUPPORT. What the transmit steps keep (41_tx_encoder.md R151, R154; 10_state.md R41 to R44). -/

namespace Sys2Proof.Machine

/-- The number of bytes of a wire image (30_encoding.md R81). -/
theorem wire_length (f : Frame) : (wire f).length =
    match f with
    | .ack => 1
    | .short _ _ => 5
    | .control _ _ _ => 9
    | .long _ _ _ p => p.length + 9 := by
  cases f <;> simp [wire]

/-- The image of a descriptor just loaded is the request's wire image (41_tx_encoder.md R154). -/
theorem txImage_load {req : TxReq} {w : List Byte} {x : Byte} {tx : Tx} (hw : tx.pay.wf)
    (h : encodeReq req = some w) : txImage (loadTx req w x tx) = w := by
  simp only [encodeReq] at h
  split at h
  · cases h
  · simp only [Option.some.injEq] at h
    subst h
    simp only [txImage, loadTx, reqFrame]
    cases hk : req.kind <;> simp [frameOf]
    rw [Memory.readRange_writeRange _ hw]

/-- The length of an accepted request's wire image (41_tx_encoder.md R151). -/
theorem encodeReq_len {req : TxReq} {w : List Byte} (h : encodeReq req = some w) :
    1 ≤ w.length ∧ w.length ≤ 261 ∧ (req.kind = .long → req.payload.length ≤ 252) := by
  simp only [encodeReq] at h
  split at h
  · cases h
  · rename_i hc
    simp only [Option.some.injEq] at h
    subst h
    rw [wire_length]
    cases hk : req.kind <;> simp [reqFrame, frameOf, hk]
    simp [hk] at hc; omega

/-- `TX_START` keeps the transmit registers at legal values. -/
theorem startTx_txOk {req : TxReq} {s : State} (h : TxOk s.tx) : TxOk (startTx req s).tx := by
  rcases startTx_cases req s with ⟨hs, he⟩ | ⟨hs, -, he⟩ | ⟨w, hs, hw, he⟩ <;> rw [he]
  · obtain ⟨h1, h2, h3, h4, h5, h6, h7, h8, h9⟩ := h
    exact ⟨h1, h2, h3, h4, h5, h6, h7, by simp [rejectTx, txErrorCode], h9⟩
  · obtain ⟨h1, h2, h3, h4, h5, h6, h7, h8, h9⟩ := h
    exact ⟨h1, h2, h3, h4, h5, h6, h7, by simp [rejectTx, txErrorCode], h9⟩
  · have hl := encodeReq_len hw
    have hp := h.2.2.2.2.2.2.2.2
    refine ⟨by simp [loadTx], fun _ => ⟨by simp [loadTx]; omega, ?_⟩, by simp [loadTx]; omega, ?_, ?_, ?_, ?_, by simp [loadTx], ?_⟩
    · rw [txImage_load hp.1 hw]; rfl
    · simp only [loadTx]; split
      · rename_i hk; exact hl.2.2 hk
      · simp
    · simp only [loadTx]; by_cases hk : req.kind = .long <;> simp [hk]
    · simp only [loadTx]; intro hk; simp [hk]
    · simp only [loadTx]; intro hk; simp [hk]
    · simp only [loadTx]; by_cases hk : req.kind = .long
      · rw [if_pos hk]
        exact ⟨Memory.wf_writeRange _ _ hp.1, Memory.within_writeRange _ _ hp.2 (by simp [spaceSize]; exact hl.2.2 hk)⟩
      · rw [if_neg hk]; exact hp

/-- `TX_STEP` keeps the transmit registers at legal values. -/
theorem stepTx_txOk {s t : State} (h : TxOk s.tx) (ht : stepTx s = .next t) : TxOk t.tx := by
  rcases stepTx_next ht with ⟨-, rfl⟩ | ⟨b, hs, hb, rfl⟩
  · exact h
  · obtain ⟨h1, h2, h3, h4, h5, h6, h7, h8, h9⟩ := h
    have hp := h2 hs
    simp only [advanceTx]
    split
    · exact ⟨by simp, by simp, h3, h4, h5, h6, h7, h8, h9⟩
    · refine ⟨by simp [hs], fun _ => ⟨?_, hp.2⟩, h3, h4, h5, h6, h7, h8, h9⟩
      simp; omega

/-- In `SENDING` there is a next byte (41_tx_encoder.md R156). -/
theorem stepTx_some {s : State} (h : TxOk s.tx) (hs : s.tx.state = .sending) : ∃ b, (txImage s.tx)[s.tx.pos]? = some b := by
  obtain ⟨h1, h2⟩ := h.2.1 hs
  rw [h2] at h1
  exact ⟨_, List.getElem?_eq_getElem h1⟩

end Sys2Proof.Machine
end

