-- ==== Sys2Proof/Machine/Trace.lean ====
section
/-! DEFINITION. The input lines of a trace (30_encoding.md R101): as data, as text, and as the input events each stands for. -/

namespace Sys2Proof.Machine

/-- A line of a trace (30_encoding.md R101). -/
inductive TraceLine where
  | rx (bytes : List Byte)
  | flush
  | reset
  | txAck
  | txShort (c a : Byte)
  | txControl (c a ci : Byte)
  | txLong (c a ci : Byte) (payload : List Byte)
  | txStep (n : Nat)
  | scan (off : Nat) (bytes : List Byte)
  | decode (bytes : List Byte)
deriving DecidableEq, Repr

/-- A hexadecimal digit, in capitals as the spec writes it. -/
def hexDigit (n : Nat) : Char := Char.ofNat (if n < 10 then 48 + n else 55 + n)

/-- A byte of a trace: two digits without prefix (30_encoding.md R101). -/
def hexByte (b : Byte) : List Char := [hexDigit (bits b 7 4), hexDigit (bits b 3 0)]

/-- Bytes of a trace, separated by spaces (00_scope.md R10). -/
def hexBytes : List Byte → List Char
  | [] => []
  | [b] => hexByte b
  | b :: c :: bs => hexByte b ++ ' ' :: hexBytes (c :: bs)

/-- The text of a line (30_encoding.md R101). Numbers are decimal (log 20). -/
def TraceLine.text : TraceLine → List Char
  | .rx bytes => "rx ".toList ++ hexBytes bytes
  | .flush => "flush".toList
  | .reset => "reset".toList
  | .txAck => "tx ack".toList
  | .txShort c a => "tx short C=".toList ++ hexByte c ++ " A=".toList ++ hexByte a
  | .txControl c a ci =>
    "tx control C=".toList ++ hexByte c ++ " A=".toList ++ hexByte a ++ " CI=".toList ++ hexByte ci
  | .txLong c a ci p =>
    "tx long C=".toList ++ hexByte c ++ " A=".toList ++ hexByte a ++ " CI=".toList ++ hexByte ci ++ " P=".toList ++ hexBytes p
  | .txStep n => "txstep ".toList ++ Nat.toDigits 10 n
  | .scan off bytes => "scan off=".toList ++ Nat.toDigits 10 off ++ ' ' :: hexBytes bytes
  | .decode bytes => "decode ".toList ++ hexBytes bytes

/-- The trace operation `decode <bytes>` (43_dif_vif_rom.md R230): `REC_DECODE` when the header is a record, and the header's
item otherwise. -/
def traceDecode (cfg : Config) (bytes : List Byte) : Instr :=
  match recHeader cfg bytes 0 with
  | some (.item (.record r)) => .recDecode bytes r
  | _ => .recHeader bytes 0

/-- The input events of a line (30_encoding.md R101). -/
def TraceLine.inputs (cfg : Config) : TraceLine → List Input
  | .rx bytes => bytes.map fun b => .coded .channel [b]
  | .flush => [.op .rxFlush]
  | .reset => [.op .reset]
  | .txAck => [.op (.txStart { kind := .ack, c := 0, a := 0, ci := 0, payload := [] })]
  | .txShort c a => [.op (.txStart { kind := .short, c := c, a := a, ci := 0, payload := [] })]
  | .txControl c a ci => [.op (.txStart { kind := .control, c := c, a := a, ci := ci, payload := [] })]
  | .txLong c a ci p => [.op (.txStart { kind := .long, c := c, a := a, ci := ci, payload := p })]
  | .txStep n => List.replicate n (.op .txStep)
  | .scan off bytes => [.op (.recScan bytes off)]
  | .decode bytes => [.op (traceDecode cfg bytes)]

end Sys2Proof.Machine
end

