-- ==== Sys2Proof/Tests/Slice0.lean ====
section
/-! SUPPORT. Tests. The expected results are those of spec/95_test_vectors.md (named by their ids) or worked out by hand from
the encoding tables; the witnesses meet the hypotheses of the statements in Certificates/Slice0/Obligations.lean. -/

namespace Sys2Proof.Tests

open Sys2Proof Sys2Proof.Machine

/-! ### Small states -/

/-- The reset state with a receive path at a position. -/
def rxAt (st : RxState) (cnt : Nat) (l1 : Byte) : State :=
  { State.reset with rx := { Rx.reset with state := st, cnt := cnt, l1 := l1 } }

/-- The reset state with these inputs to come. -/
def withInputs (is : List Input) : State := { State.reset with inputs := is }

/-- The reset state while an Acknowledge is being sent. -/
def sendingAck : State :=
  { State.reset with tx := { Tx.reset with state := .sending, len := 1, code := .frameOk } }

/-- The state after an outcome, the reset state where there is none. -/
def after : Out → State
  | .next t => t
  | .fault _ => State.reset
  | .refused _ => State.reset

/-- The state after an instruction from a state. -/
def run (i : Instr) (s : State) : State := after (exec i s)

/-- The events of an instruction from the reset state. -/
def eventsOf (i : Instr) : List Event := (run i State.reset).events

/-- What an instruction hands back from the reset state. -/
def answersOf (i : Instr) : List Answer := (run i State.reset).answers

/-! ### Ill-formed terms the checks refuse -/

theorem test_wf_long_frame_needs_a_payload : (Instr.frameLong 8 1 0x72 []).wf = false := by decide
theorem test_wf_long_frame_has_at_most_252_bytes (p : List Byte) (h : p.length = 252) (b : Byte) :
    (Instr.frameLong 8 1 0x72 p).wf = true ∧ (Instr.frameLong 8 1 0x72 (b :: p)).wf = false := by
  simp [Instr.wf, Frame.valid, h]
theorem test_wf_hunt_other_is_no_delimiter :
    (Instr.rxHuntOther 0xE5).wf = false ∧ (Instr.rxHuntOther 0x10).wf = false ∧ (Instr.rxHuntOther 0x68).wf = false := by
  decide
theorem test_wf_request_has_at_most_65535_bytes (p : List Byte) (h : 65535 < p.length) :
    (Instr.txStart ⟨.long, 8, 1, 0x72, p⟩).wf = false ∧ (Instr.encode ⟨.long, 8, 1, 0x72, p⟩).wf = false
    ∧ (Instr.send ⟨.long, 8, 1, 0x72, p⟩).wf = false := by
  have : ¬p.length ≤ 65535 := by omega
  simp [Instr.wf, TxReq.wf, this]
theorem test_wf_host_read_stays_inside :
    (Instr.hostRead (.buffer .rxBody 254 2)).wf = false ∧ (Instr.hostRead (.buffer .resPay 252 1)).wf = false
    ∧ (Instr.hostRead (.buffer .txPay 0 253)).wf = false := by decide
theorem test_wf_header_index_is_inside : (Instr.recHeader [4, 6] 2).wf = false := by decide
theorem test_wf_extract_layout_and_length :
    (Instr.extract (.bcd 3) [0x25]).wf = false ∧ (Instr.extract (.int .w2) [1]).wf = false
    ∧ (Instr.extract .special [1]).wf = false ∧ (Instr.extract .varLen [0xC0]).wf = false
    ∧ (Instr.extract .varLen [2, 0x41]).wf = false := by decide
theorem test_wf_record_lies_in_its_bytes :
    (Instr.recDecode [4, 6, 1, 0, 0] ⟨0, 6, 4, [], 6, [], 2, 4⟩).wf = false
    ∧ (Instr.recDecode [4, 6, 1, 0, 0, 0] ⟨0, 6, 0x84, [], 6, [], 2, 4⟩).wf = false := by decide
theorem test_wf_special_other_is_special :
    (Instr.difSpecialOther 0x2F).wf = false ∧ (Instr.difSpecialOther 0x3E).wf = false
    ∧ (Instr.difSpecialOther 0x3F).wf = true := by decide
theorem test_wf_config_names_the_confirmed_codes :
    defaultConfig.wf = true
    ∧ ({ defaultConfig with vifRom := defaultVifRom.set 6 .reserved } : Config).wf = false
    ∧ ({ defaultConfig with difRom := defaultDifRom.set 9 (.bcd 3) } : Config).wf = false := by decide

/-- The energy at 0x06 is of kWh-class scaling: 10^3 Wh, or a kWh by its name, and no J. -/
theorem test_wf_config_asks_for_kwh_class :
    ({ defaultConfig with vifRom := defaultVifRom.set 6 (.known .energy (.other ['k', 'W', 'h']) 0) } : Config).wf = true
    ∧ ({ defaultConfig with vifRom := defaultVifRom.set 6 (.known .energy .joule 0) } : Config).wf = false
    ∧ ({ defaultConfig with vifRom := defaultVifRom.set 6 (.known .energy .wattHour 2) } : Config).wf = false
    ∧ ({ defaultConfig with vifRom := defaultVifRom.set 0x13 (.known .volumeFlow .cubicMetrePerHour 0) } : Config).wf = false := by
  decide

/-- `RECIN` holds the largest payload and no more. -/
theorem test_recin_bound (p : List Byte) (h : p.length = 252) (b : Byte) :
    (Instr.recScan p 0).recinFits = true ∧ (Instr.recScan (b :: p) 0).recinFits = false ∧ Instr.txStep.recinFits = true := by
  simp [Instr.recinFits, Instr.recin, h]

/-! ### Words written out from the encoding tables -/

/-- The instruction a byte is at a port. -/
def oneByte (port : Port) (b : Byte) : Option Instr :=
  match decode RxPos.hunting port [b] with
  | .ok (i, []) => some i
  | .ok (_, _ :: _) => none
  | .error _ => none

/-- EN2, EN8, EN9 and EN1: the frame formats, with a byte after the frame left over. -/
theorem test_decode_frames :
    decode RxPos.hunting .frame [0x10, 0x40, 0x01, 0x41, 0x16, 0xE5] = .ok (.frameShort 0x40 0x01, [0xE5])
    ∧ decode RxPos.hunting .frame [0x68, 0x03, 0x03, 0x68, 0x53, 0x01, 0x51, 0xA5, 0x16]
        = .ok (.frameControl 0x53 0x01 0x51, [])
    ∧ decode RxPos.hunting .frame [0x68, 0x04, 0x04, 0x68, 0x08, 0x05, 0x72, 0xAA, 0x29, 0x16]
        = .ok (.frameLong 0x08 0x05 0x72 [0xAA], [])
    ∧ decode RxPos.hunting .frame [0xE5] = .ok (.frameAck, []) := by decide

/-- RX12, RX26, RX22 and RX2: no frame, by its own name. -/
theorem test_decode_frames_rejects_by_name :
    decode RxPos.hunting .frame [0x10, 0x40, 0x01, 0x42, 0x17] = .error .lengthMismatch
    ∧ decode RxPos.hunting .frame [0x68, 0x03, 0x03, 0x68, 0x53, 0x01, 0x51, 0xA6, 0x16] = .error .checksumError
    ∧ decode RxPos.hunting .frame [0x68, 0x04, 0x03, 0x68, 0x53, 0x01, 0x51, 0xA5, 0x16] = .error .incompleteFrame
    ∧ decode RxPos.hunting .frame [0x00] = .error .framingError
    ∧ decode RxPos.hunting .difSpecial [0x04] = .error .notSpecialDif
    ∧ decode RxPos.hunting .vif [] = .error .noByte := by decide

/-- The receive byte classes by state and position. -/
theorem test_decode_receive_classes :
    oneByte .channel 0xE5 = some .rxHuntAck ∧ oneByte .channel 0x10 = some .rxHuntStartShort
    ∧ oneByte .channel 0x68 = some .rxHuntStartLong ∧ oneByte .channel 0x16 = some (.rxHuntOther 0x16)
    ∧ decode ⟨.short, 3, 0⟩ .channel [0xE5] = .ok (.rxShortBody 0xE5, [])
    ∧ decode ⟨.short, 4, 0⟩ .channel [0xE5] = .ok (.rxShortStop 0xE5, [])
    ∧ decode ⟨.long, 1, 0⟩ .channel [0x68] = .ok (.rxLongBody 0x68, [])
    ∧ decode ⟨.long, 4, 0⟩ .channel [0x16] = .ok (.rxLongBody 0x16, [])
    ∧ decode ⟨.long, 5, 0⟩ .channel [0x16] = .ok (.rxLongStop 0x16, [])
    ∧ decode ⟨.long, 260, 255⟩ .channel [0x16] = .ok (.rxLongStop 0x16, []) := by decide

/-- 0x95 = 1 0 01 0101, 0xD2 = 1 1 01 0010, 0x93 = 1 0010011, 0x3C = 0 0111100, 0xBF. -/
theorem test_decode_record_bytes :
    oneByte .dif 0x95 = some (.dif 1 0 1 5) ∧ oneByte .dife 0xD2 = some (.dife 1 1 1 2)
    ∧ oneByte .vif 0x93 = some (.vif 1 0x13) ∧ oneByte .vife 0x3C = some (.vife 0 0x3C)
    ∧ oneByte .lvar 0xBF = some (.lvar 0xBF) := by decide

theorem test_decode_functions :
    oneByte .difFunction 0x84 = some (.difFuncInstantaneous 1 0 4)
    ∧ oneByte .difFunction 0x95 = some (.difFuncMaximum 1 0 5)
    ∧ oneByte .difFunction 0x22 = some (.difFuncMinimum 0 0 2)
    ∧ oneByte .difFunction 0x72 = some (.difFuncError 0 1 2) := by decide

/-- One byte for each data-field code, with different ext, storage and function bits. -/
theorem test_decode_data_codes :
    oneByte .difData 0x00 = some (.difData0NoData 0 0 0) ∧ oneByte .difData 0x81 = some (.difData1Int1 1 0 0)
    ∧ oneByte .difData 0x42 = some (.difData2Int2 0 1 0) ∧ oneByte .difData 0x13 = some (.difData3Int3 0 0 1)
    ∧ oneByte .difData 0x24 = some (.difData4Int4 0 0 2) ∧ oneByte .difData 0x95 = some (.difData5Real32 1 0 1)
    ∧ oneByte .difData 0xF6 = some (.difData6Int6 1 1 3) ∧ oneByte .difData 0x07 = some (.difData7Int8 0 0 0)
    ∧ oneByte .difData 0xC8 = some (.difData8Selection 1 1 0) ∧ oneByte .difData 0x39 = some (.difData9Bcd2 0 0 3)
    ∧ oneByte .difData 0x0A = some (.difDataABcd4 0 0 0) ∧ oneByte .difData 0x6B = some (.difDataBBcd6 0 1 2)
    ∧ oneByte .difData 0x8C = some (.difDataCBcd8 1 0 0) ∧ oneByte .difData 0x0D = some (.difDataDVarLen 0 0 0)
    ∧ oneByte .difData 0x1E = some (.difDataEBcd12 0 0 1) ∧ oneByte .difData 0x3F = some (.difDataFSpecial 0 0 3) := by
  decide

/-- RH28, RH29, RH30, RH26. -/
theorem test_decode_special_difs :
    decode RxPos.hunting .difSpecial [0x0F, 0xAA, 0xBB] = .ok (.difMfrTail [0xAA, 0xBB], [])
    ∧ decode RxPos.hunting .difSpecial [0x1F] = .ok (.difMfrTailMore [], [])
    ∧ decode RxPos.hunting .difSpecial [0x2F, 0x2F] = .ok (.difFiller, [0x2F])
    ∧ oneByte .difSpecial 0x3F = some (.difSpecialOther 0x3F) := by decide

/-- One byte for each row of VIF codes 0x00 to 0x57, with an ext bit here and there. -/
theorem test_decode_vif_codes_low :
    oneByte .vifCode 0x06 = some (.vif00Energy 0 6) ∧ oneByte .vifCode 0x8B = some (.vif08Energy 1 3)
    ∧ oneByte .vifCode 0x13 = some (.vif10Volume 0 3) ∧ oneByte .vifCode 0x1F = some (.vif18Mass 0 7)
    ∧ oneByte .vifCode 0x22 = some (.vif20OnTime 0 2) ∧ oneByte .vifCode 0x27 = some (.vif24OperatingTime 0 3)
    ∧ oneByte .vifCode 0xAE = some (.vif28Power 1 6) ∧ oneByte .vifCode 0x31 = some (.vif30Power 0 1)
    ∧ oneByte .vifCode 0x3B = some (.vif38VolumeFlow 0 3) ∧ oneByte .vifCode 0x43 = some (.vif40VolumeFlow 0 3)
    ∧ oneByte .vifCode 0x4F = some (.vif48VolumeFlow 0 7) ∧ oneByte .vifCode 0x53 = some (.vif50MassFlow 0 3) := by
  decide

/-- One byte for each row of VIF codes 0x58 to 0x7F. -/
theorem test_decode_vif_codes_high :
    oneByte .vifCode 0x5B = some (.vif58FlowTemperature 0 3) ∧ oneByte .vifCode 0x5E = some (.vif5CReturnTemperature 0 2)
    ∧ oneByte .vifCode 0x62 = some (.vif60TemperatureDifference 0 2)
    ∧ oneByte .vifCode 0xE7 = some (.vif64ExternalTemperature 1 3) ∧ oneByte .vifCode 0x69 = some (.vif68Pressure 0 1)
    ∧ oneByte .vifCode 0x6C = some (.vif6CTimePoint 0) ∧ oneByte .vifCode 0x6D = some (.vif6DTimePoint 0)
    ∧ oneByte .vifCode 0x6E = some (.vif6EHcaUnits 0) ∧ oneByte .vifCode 0x6F = some (.vif6FReserved 0)
    ∧ oneByte .vifCode 0x72 = some (.vif70AveragingDuration 0 2) ∧ oneByte .vifCode 0x77 = some (.vif74ActualityDuration 0 3)
    ∧ oneByte .vifCode 0x78 = some (.vif78FabricationNo 0) ∧ oneByte .vifCode 0xF9 = some (.vif79EnhancedId 1)
    ∧ oneByte .vifCode 0x7A = some (.vif7ABusAddress 0) ∧ oneByte .vifCode 0xFB = some (.vif7BExtTableFB 1)
    ∧ oneByte .vifCode 0x7C = some (.vif7CPlainText 0) ∧ oneByte .vifCode 0xFD = some (.vif7DExtTableFD 1)
    ∧ oneByte .vifCode 0x7E = some (.vif7EAnyVif 0) ∧ oneByte .vifCode 0xFF = some (.vif7FMfrSpecific 1) := by decide

/-- Words numbered as the opcode table numbers them: the first byte is the least significant one. -/
theorem test_table_words :
    decodeTableWord 40 0x1641014010 = some (.frameShort 0x40 0x01) ∧ decodeTableWord 8 0xE5 = some .frameAck
    ∧ decodeTableWord 8 0x10 = some .rxHuntStartShort ∧ decodeTableWord 8 0x2F = some .difFiller := by decide

/-! ### Receiving -/

/-- RX1, RX8, RX16 and RX17. -/
theorem test_frame_rows :
    eventsOf .frameAck = [.frameOk .ack 1] ∧ eventsOf (.frameShort 0x40 0x01) = [.frameOk (.short 0x40 0x01) 5]
    ∧ eventsOf (.frameControl 0x53 0x01 0x51) = [.frameOk (.control 0x53 0x01 0x51) 9]
    ∧ eventsOf (.frameLong 0x08 0x05 0x72 [0xAA]) = [.frameOk (.long 0x08 0x05 0x72 [0xAA]) 10] := by decide

/-- RX1, RX4, RX5 and RX2. -/
theorem test_hunt_rows :
    eventsOf .rxHuntAck = [.frameOk .ack 1]
    ∧ (run .rxHuntStartShort State.reset).rx = { Rx.reset with state := .short, cnt := 1 }
    ∧ (run .rxHuntStartLong State.reset).rx = { Rx.reset with state := .long, cnt := 1 }
    ∧ eventsOf (.rxHuntOther 0x00) = [.error .framingError 1 0x00] := by decide

/-- A class row outside its condition acts as its byte: RX14 (0xE5 as C of a Short frame), log 7. -/
theorem test_class_row_outside_its_state :
    (run .rxHuntAck (rxAt .short 1 0)).rx.body = [(0, 0xE5)] ∧ (run .rxHuntAck (rxAt .short 1 0)).events = [] := by decide

/-- RX6 and RX12. -/
theorem test_short_rows :
    (run (.rxShortBody 0x01) { (rxAt .short 2 0) with rx := { (rxAt .short 2 0).rx with body := [(0, 0x40)], sum := 0x40 } }).rx
      = { Rx.reset with state := .short, cnt := 3, body := [(0, 0x40), (1, 0x01)], sum := 0x41 }
    ∧ (run (.rxShortStop 0x17) { (rxAt .short 4 0) with rx := { (rxAt .short 4 0).rx with cs := 1 } }).events
      = [.error .lengthMismatch 5 0] := by decide

/-- CT3 (0xE5 stored as the second length byte) and RX28. -/
theorem test_long_rows :
    (run (.rxLongBody 0xE5) (rxAt .long 2 0xFF)).rx = { Rx.reset with state := .long, cnt := 3, l1 := 0xFF, l2 := 0xE5 }
    ∧ (run (.rxLongStop 0x16) { (rxAt .long 5 0) with rx := { (rxAt .long 5 0).rx with s2 := 0x68 } }).events
      = [.error .lengthMismatch 6 0] := by decide

/-- RX2 and RX7. -/
theorem test_rx_byte :
    (run (.rxByte 0xFF) State.reset).res = { Res.reset with code := .framingError, consumed := 1, byte := 0xFF }
    ∧ (run (.rxByte 0x41) (rxAt .short 3 0)).rx = { Rx.reset with state := .short, cnt := 4, cs := 0x41 } := by decide

/-- RX32, and the registers held by a failed attempt (the run of section 2.2). -/
theorem test_feed :
    eventsOf (.feed [0x10, 0x40, 0x01, 0x41, 0x16, 0xE5, 0xFF])
      = [.frameOk (.short 0x40 0x01) 5, .frameOk .ack 1, .error .framingError 1 0xFF]
    ∧ (run (.feed [0x10, 0x40, 0x01, 0x42, 0x16]) (run (.frameLong 0x08 0x05 0x72 [0xAA]) State.reset)).res
      = { code := .checksumError, kind := .long, c := 0x08, a := 0x05, ci := 0x72, plen := 1, pay := [(0, 0xAA)],
          consumed := 5, byte := 0 } := by decide

/-- MU4 and IN5. -/
theorem test_decode :
    answersOf (.decode [0x68, 0x05, 0x05, 0x68, 0x08, 0x05, 0x72, 0xAB, 0xBA, 0xE4, 0x16])
      = [.decoded (.ok (.long 0x08 0x05 0x72 [0xAB, 0xBA]) 11)]
    ∧ answersOf (.decode [0x68, 0x05, 0x06]) = [.decoded .incomplete] := by decide

/-! ### Transmitting and control -/

/-- TX1. -/
theorem test_tx_start :
    (run (.txStart ⟨.short, 0x40, 0x01, 0x99, [1]⟩) State.reset).tx.pos = 0
    ∧ (run (.txStart ⟨.short, 0x40, 0x01, 0x99, [1]⟩) State.reset).tx.len = 5
    ∧ (run (.txStart ⟨.short, 0x40, 0x01, 0x99, [1]⟩) State.reset).tx.ci = 0 := by decide

/-- TX7. -/
theorem test_tx_start_too_long (p : List Byte) (h : p.length = 253) :
    eventsOf (.txStart ⟨.long, 0x53, 0xFE, 0x51, p⟩) = [.txRejected .invalidFrame] := by
  simp [eventsOf, run, exec, execTxStart, startTx, State.reset, Tx.reset, after, encodeReq, h, rejectTx]

/-- TX5 and TX3. -/
theorem test_tx_step :
    (run .txStep sendingAck).events = [.txByte 0xE5, .txDone] ∧ exec .txStep State.reset = .next State.reset :=
  ⟨by decide, rfl⟩

/-- EN12 and TX8. -/
theorem test_encode :
    answersOf (.encode ⟨.long, 0x53, 0xFE, 0x51, [0x01, 0x7A, 0x05]⟩)
      = [.encoded (.ok [0x68, 0x06, 0x06, 0x68, 0x53, 0xFE, 0x51, 0x01, 0x7A, 0x05, 0x22, 0x16])]
    ∧ (run (.encode ⟨.long, 0x53, 0xFE, 0x51, List.replicate 253 0⟩) sendingAck).answers = [.encoded (.err .txBusy)] :=
  ⟨by decide, rfl⟩

/-- TX2 and TX6. -/
theorem test_send :
    eventsOf (.send ⟨.short, 0x40, 0x01, 0, []⟩)
      = [.txByte 0x10, .txByte 0x40, .txByte 0x01, .txByte 0x41, .txByte 0x16, .txDone]
    ∧ (run (.send ⟨.ack, 0, 0, 0, []⟩) sendingAck).events = [.txRejected .txBusy, .txByte 0xE5, .txDone] := by decide

/-- CT1 and CT6. -/
theorem test_reset :
    exec .reset (rxAt .long 2 0x05) = .next State.reset ∧ (run .txStep (run .reset sendingAck)).events = [] :=
  ⟨rfl, by decide⟩

/-- CT2 and CT5. -/
theorem test_rx_flush :
    (run .rxFlush (rxAt .long 2 0xFF)).rx = { Rx.reset with l1 := 0xFF }
    ∧ (run .rxFlush (run .rxHuntAck State.reset)).res.code = .frameOk := by decide

/-- RX15 and the error code of RX2. -/
theorem test_host_read :
    (run (.hostRead (.buffer .rxBody 1 2)) (run (.feed [0x68, 0x03, 0x03, 0x68, 0x53, 0x01, 0x51]) State.reset)).answers
      = [.bytes [0x01, 0x51]]
    ∧ (run (.hostRead .resCode) (run (.rxByte 0) State.reset)).answers = [.reg 2] := by decide

/-! ### The decoder functions -/

/-- RH4 and RH13. -/
theorem test_rec_header :
    answersOf (.recHeader [0xC4, 0x92, 0x03, 0x06, 0x01, 0x00, 0x00, 0x00] 0)
      = [.header (.item (.record ⟨0, 8, 0xC4, [0x92, 0x03], 0x06, [], 4, 4⟩))]
    ∧ answersOf (.recHeader ([0x84] ++ List.replicate 10 0x81 ++ [0x01, 0x06, 0, 0, 0, 0]) 0)
      = [.header (.item (.refused 0 .chainTooLong))] := by decide

/-- SC5 and SC6 (an offset past the payload). -/
theorem test_rec_scan :
    answersOf (.recScan [0x04, 0x06, 0x39, 0x30, 0x00, 0x00, 0x0C, 0x13, 0x78, 0x56] 0)
      = [.items [.record ⟨0, 6, 0x04, [], 0x06, [], 2, 4⟩, .malformed 6]]
    ∧ answersOf (.recScan [0x2F] 2) = [.items [.refused 2 .badOffset]] := by decide

/-- DL1, DF5, DA4. -/
theorem test_dif_functions :
    answersOf (.difLookup 0xC) = [.layout (.bcd 8)]
    ∧ answersOf (.difFields 0x95) = [.difFields ⟨1, 0, .maximum, 5⟩]
    ∧ answersOf (.difeAcc 0xC4 [0x92, 0x03]) = [.acc ⟨101, 1, 0⟩] := by decide

/-- VL1 and VL22 (an entry of `VIFE_ROM`). -/
theorem test_vif_lookup :
    answersOf (.vifLookup 0x06 []) = [.vif (.resolved .energy .wattHour 3)]
    ∧ vifLookup { defaultConfig with vifeRom := [⟨0x86, [0x00], .known .energy .wattHour 6⟩] } 0x86 [0x00]
      = .resolved .energy .wattHour 6 := by decide

/-- EX11 and EX17. -/
theorem test_extract :
    answersOf (.extract (.int .w4) [0x00, 0x00, 0x00, 0x80]) = [.value (.num (-2147483648))]
    ∧ answersOf (.extract (.bcd 4) [0x1A, 0x00]) = [.value .badBcd] := by decide

/-- DV12 and DV10 without its final value. -/
theorem test_rec_decode :
    answersOf (.recDecode [0x95, 0x01, 0x2B, 0x00, 0x00, 0x80, 0x3F] ⟨0, 7, 0x95, [0x01], 0x2B, [], 3, 4⟩)
      = [.reading ⟨.resolved .power .watt 0, .real 0x3F800000, 2, 0, 0, .maximum, 0x2B, [], [0x00, 0x00, 0x80, 0x3F]⟩]
    ∧ answersOf (.recDecode [0x01, 0x67, 0xF6] ⟨0, 3, 0x01, [], 0x67, [], 2, 1⟩)
      = [.reading ⟨.resolved .externalTemperature .degreeCelsius 0, .num (-10), 0, 0, 0, .instantaneous, 0x67, [],
          [0xF6]⟩] := by decide

/-- DF5 and DA4's first DIFE, VL2, VL17, RH22. -/
theorem test_record_byte_rows :
    answersOf (.dif 1 0 1 5) = [.difFields ⟨1, 0, .maximum, 5⟩] ∧ answersOf (.dife 1 0 1 2) = [.difeFields ⟨1, 0, 1, 2⟩]
    ∧ answersOf (.vif 0 0x13) = [.vifFields ⟨0, 0x13⟩] ∧ answersOf (.vife 0 0x17) = [.vifFields ⟨0, 0x17⟩]
    ∧ answersOf (.lvar 0xC2) = [.lvar .reserved] ∧ answersOf (.lvar 0xBF) = [.lvar (.text 191)] := by decide

theorem test_function_rows :
    answersOf (.difFuncInstantaneous 0 0 4) = [.func .instantaneous] ∧ answersOf (.difFuncMaximum 1 0 5) = [.func .maximum]
    ∧ answersOf (.difFuncMinimum 0 0 2) = [.func .minimum] ∧ answersOf (.difFuncError 0 0 2) = [.func .error] := by decide

/-- DL1 and the lengths of 30_encoding.md R96, one row of each kind. -/
theorem test_data_rows :
    answersOf (.difData6Int6 0 0 0) = [.dataField (.int .w6) (.fixed 6)]
    ∧ answersOf (.difDataEBcd12 0 0 0) = [.dataField (.bcd 12) (.fixed 6)]
    ∧ answersOf (.difDataDVarLen 0 0 0) = [.dataField .varLen .onePlusLvar] := by decide

/-- RH28, RH29, RH30, RH26. -/
theorem test_special_rows :
    answersOf (.difMfrTail [0xAA, 0xBB]) = [.header (.item (.mfrTail 0 3 false))]
    ∧ answersOf (.difMfrTailMore []) = [.header (.item (.mfrTail 0 1 true))]
    ∧ answersOf .difFiller = [.header .filler]
    ∧ answersOf (.difSpecialOther 0x3F) = [.header (.item (.refused 0 .specialDif))] := by decide

/-- VL1, VL2, VL9, VL11, VL12, VL13, VL16. -/
theorem test_vif_rows :
    answersOf (.vif00Energy 0 6) = [.entry (.known .energy .wattHour 3)]
    ∧ answersOf (.vif10Volume 0 3) = [.entry (.known .volume .cubicMetre (-3))]
    ∧ answersOf (.vif48VolumeFlow 0 3) = [.entry (.known .volumeFlow .cubicMetrePerSecond (-6))]
    ∧ answersOf (.vif58FlowTemperature 0 2) = [.entry (.known .flowTemperature .degreeCelsius (-1))]
    ∧ answersOf (.vif6DTimePoint 0) = [.entry (.known .timePoint .dateTime 0)]
    ∧ answersOf (.vif6FReserved 0) = [.entry .reserved] ∧ answersOf (.vif7BExtTableFB 1) = [.entry (.extTable .fb)] := by
  decide

/-- DV11 under the default interpretation of a real: 1.0 is 1000 in W with scale 3. -/
theorem test_final_value :
    finalValue (K := Rat) binary32 ⟨.resolved .power .watt 3, .real 0x3F800000, 0, 0, 0, .instantaneous, 0x2E, [], []⟩
      = some (.real (.number 1000)) := by
  have h : binary32 0x3F800000 = .number ((1 : Rat) * (2 ^ 23 + 0 : Nat) * pow2 (127 - 150)) := rfl
  simp only [finalValue, scaledValue, h, scaleReal, pow2, pow10]
  norm_num [Int.toNat]

/-- DV1 and its final value, 12345000 Wh, under the default parameters over the reals. -/
theorem test_record_final_value :
    recordFinalValue (defaultParameters (K := Real)) [0x04, 0x06, 0x39, 0x30, 0x00, 0x00] ⟨0, 6, 4, [], 6, [], 2, 4⟩
      = some (.exact 12345000) := by
  have h : recDecode defaultConfig [0x04, 0x06, 0x39, 0x30, 0x00, 0x00] ⟨0, 6, 4, [], 6, [], 2, 4⟩
      = some ⟨.resolved .energy .wattHour 3, .num 12345, 0, 0, 0, .instantaneous, 6, [], [0x39, 0x30, 0x00, 0x00]⟩ := by
    decide
  simp only [recordFinalValue, defaultParameters, h, Option.bind_some, finalValue, scaledValue, pow10]
  norm_num [Int.toNat]

/-! ### Witnesses: states and operands that meet the hypotheses of the statements, at the ends of their ranges -/

theorem witness_DecodingAnEncodingGivesTheInstructionBack :
    ((Instr.frameLong 8 5 0x72 [0xAA]).wf = true ∧ (Instr.frameLong 8 5 0x72 [0xAA]).applies RxPos.hunting = true
      ∧ encode (.frameLong 8 5 0x72 [0xAA]) = some (.frame, [0x68, 4, 4, 0x68, 8, 5, 0x72, 0xAA, 0x29, 0x16])
      ∧ ∀ tail, Instr.frameLong 8 5 0x72 [0xAA] ≠ .difMfrTail tail ∧ Instr.frameLong 8 5 0x72 [0xAA] ≠ .difMfrTailMore tail)
    ∧ ((Instr.difMfrTail [0xAA]).wf = true ∧ encode (.difMfrTail [0xAA]) = some (.difSpecial, [0x0F, 0xAA]))
    ∧ (Instr.rxLongStop 0x16).applies ⟨.long, 260, 255⟩ = true :=
  ⟨⟨by decide, by decide, by decide, fun _ => ⟨by simp, by simp⟩⟩, by decide, by decide⟩

theorem witness_WhatTheDecoderReadsReencodes :
    decode ⟨.long, 260, 255⟩ .channel [0x16] = .ok (.rxLongStop 0x16, [])
    ∧ decode RxPos.hunting .dife [0xD2, 0x01] = .ok (.dife 1 1 1 2, [0x01]) := by decide

/-- Each clause: no input, an operation, bytes with some left over, a burst that is no frame, an operand outside its domain,
bytes that are no object of their port. -/
theorem witness_StepRunsTheNextInput :
    (withInputs []).inputs = [] ∧ Instr.txStep.wf = true
    ∧ decode (rxPos (withInputs [.coded .dif [0x95, 1]]).rx) .dif [0x95, 1] = .ok (.dif 1 0 1 5, [1])
    ∧ decode (rxPos (withInputs [.coded .frame [0]]).rx) .frame [0] = .error .framingError
    ∧ (Instr.recHeader [] 0).wf = false
    ∧ decode (rxPos (withInputs [.coded .difSpecial [4]]).rx) .difSpecial [4] = .error .notSpecialDif := by decide

theorem witness_AByteInHunt :
    State.reset.rx.state = .hunt ∧ (rxAt .short 4 0).rx.state ≠ .hunt
    ∧ exec (.rxByte 0xE5) (rxAt .long 1 0) = .next (run (.rxByte 0xE5) (rxAt .long 1 0))
    ∧ ((0x16 : Byte) ≠ 0xE5 ∧ (0x16 : Byte) ≠ 0x10 ∧ (0x16 : Byte) ≠ 0x68) := ⟨rfl, by decide, rfl, by decide⟩

theorem witness_AByteOfAShortFrame :
    ∀ k ∈ [1, 2, 3], (rxAt .short k 0).rx.state = .short ∧ (rxAt .short k 0).rx.cnt = k := by decide

/-- The three outcomes: a wrong stop byte, a wrong checksum, a frame. -/
theorem witness_TheStopOfAShortFrame :
    (rxAt .short 4 0).rx.state = .short ∧ (rxAt .short 4 0).rx.cnt = 4
    ∧ (run (.rxByte 0x17) (rxAt .short 4 0)).res.code = .lengthMismatch
    ∧ (run (.rxByte 0x16) { (rxAt .short 4 0) with rx := { (rxAt .short 4 0).rx with cs := 1 } }).res.code = .checksumError
    ∧ (run (.rxByte 0x16) (rxAt .short 4 0)).events = [.frameOk (.short 0 0) 5] := by decide

/-- The three header positions, the first and the last body position, and CS with no body and with the longest. -/
theorem witness_AByteOfALongFrame :
    (∀ k ∈ [1, 2, 3], (rxAt .long k 0).rx.state = .long ∧ (rxAt .long k 0).rx.cnt = k)
    ∧ (∀ q ∈ ([(4, 1), (258, 255)] : List (Nat × Byte)),
        4 ≤ (rxAt .long q.1 q.2).rx.cnt ∧ (rxAt .long q.1 q.2).rx.cnt ≤ (rxAt .long q.1 q.2).rx.l1.toNat + 3)
    ∧ (∀ q ∈ ([(4, 0), (259, 255)] : List (Nat × Byte)),
        4 ≤ (rxAt .long q.1 q.2).rx.cnt ∧ (rxAt .long q.1 q.2).rx.cnt = (rxAt .long q.1 q.2).rx.l1.toNat + 4) := by decide

theorem witness_TheStopOfALongFrame :
    ∀ q ∈ ([(5, 0), (8, 3), (9, 4), (260, 255)] : List (Nat × Byte)),
      (rxAt .long q.1 q.2).rx.state = .long ∧ (rxAt .long q.1 q.2).rx.cnt = (rxAt .long q.1 q.2).rx.l1.toNat + 5 := by decide

/-- The sequencing registers in range, at the ends of each state (also of `EveryByteSequenceIsReceived`). -/
theorem witness_ReceivingIsTotal :
    RxSeqOk State.reset.rx ∧ RxSeqOk (rxAt .short 1 0).rx ∧ RxSeqOk (rxAt .short 4 0).rx ∧ RxSeqOk (rxAt .long 1 0).rx
    ∧ RxSeqOk (rxAt .long 5 0).rx ∧ RxSeqOk (rxAt .long 260 255).rx :=
  ⟨by decide, by decide, by decide, by decide, by decide, by decide⟩

theorem witness_EveryByteSequenceIsReceived :
    RxSeqOk (rxAt .long 5 0).rx ∧ exec (.rxByte 0xE5) State.reset = .next (run (.rxByte 0xE5) State.reset) :=
  ⟨by decide, rfl⟩

theorem witness_ClassRowsAreReceivedBytes :
    Instr.rxHuntAck.classByte 0xE5 ∧ (Instr.rxHuntOther 0).classByte 0 ∧ (Instr.rxShortBody 0xFF).classByte 0xFF
    ∧ (Instr.rxLongStop 0x16).classByte 0x16 := by decide

/-- A verdict of each kind, from a state in range. -/
theorem witness_BytesConsumedPerOutcome :
    (RxSeqOk State.reset.rx ∧ (run (.rxByte 0xE5) State.reset).events = [.frameOk .ack 1]
      ∧ (run (.rxByte 0) State.reset).events = [.error .framingError 1 0])
    ∧ (RxSeqOk (rxAt .short 4 0).rx ∧ (run (.rxByte 0x16) (rxAt .short 4 0)).events = [.frameOk (.short 0 0) 5]
      ∧ (run (.rxByte 0) (rxAt .short 4 0)).events = [.error .lengthMismatch 5 0])
    ∧ (RxSeqOk (rxAt .long 260 255).rx
      ∧ (run (.rxByte 0x16) (rxAt .long 260 255)).events = [.error .lengthMismatch 261 0])
    ∧ eventsOf (.frameControl 1 2 3) = [.frameOk (.control 1 2 3) 9]
    ∧ eventsOf (.frameLong 1 2 3 [4]) = [.frameOk (.long 1 2 3 [4]) 10] := by decide

theorem witness_AFailedVerdictKeepsTheLastGoodFrame :
    exec (.rxByte 7) State.reset = .next (run (.rxByte 7) State.reset)
    ∧ (run (.rxByte 7) State.reset).events = State.reset.events ++ [.error .framingError 1 7] := ⟨rfl, by decide⟩

/-- A byte stored at each end of the body, and the two classes of verdict. -/
theorem witness_WhereAReceivedByteIsStored :
    (Instr.rxLongBody 9).classByte 9 ∧ (rxAt .long 258 255).rx.body.wf ∧ (rxAt .long 258 255).res.pay.wf
    ∧ exec (.rxLongBody 9) (rxAt .long 258 255) = .next (run (.rxLongBody 9) (rxAt .long 258 255))
    ∧ bodyIndex (rxAt .long 258 255).rx = some 254 ∧ bodyIndex (rxAt .short 1 0).rx = some 0
    ∧ bodyIndex (rxAt .short 3 0).rx = none :=
  ⟨by decide, by decide, by decide, rfl, by decide, by decide, by decide⟩

theorem witness_EachKindTouchesOnlyItsOwn :
    (Instr.feed [0xE5]).receives = true ∧ exec (.feed [0xE5]) State.reset = .next (run (.feed [0xE5]) State.reset)
    ∧ Instr.txStep.transmits = true ∧ exec .txStep State.reset = .next State.reset
    ∧ (Instr.lvar 1).asks = true ∧ exec (.lvar 1) State.reset = .next (run (.lvar 1) State.reset) :=
  ⟨rfl, rfl, rfl, rfl, rfl, rfl⟩

/-- The four kinds, the shortest and the longest payload, and one too long. -/
theorem witness_AWireImageIsReceivedAsItsFrame (p : List Byte) (h : p.length = 252) (b : Byte) :
    CleanRx State.reset ∧ State.reset.rx.body.wf ∧ Frame.ack.valid = true ∧ (Frame.short 0 255).valid = true
    ∧ (Frame.control 0 0 0).valid = true ∧ (Frame.long 0 0 0 [0]).valid = true ∧ (Frame.long 0 0 0 p).valid = true
    ∧ 252 < (b :: p).length :=
  ⟨by decide, by decide, by decide, by decide, by decide, by decide, by simp [Frame.valid, h], by simp [h]⟩

theorem witness_DecodingAWireImageGivesTheFrame (p : List Byte) (h : p.length = 252) :
    (Frame.long 0 0 0 [0]).valid = true ∧ (Frame.long 0 0 0 p).valid = true := by
  simp [Frame.valid, h]

/-- The prefixes: none and all but one byte of a frame; the shortest and the longest short buffers. -/
theorem witness_AShortBufferIsIncomplete (bs : List Byte) (h : bs.length = 258) :
    (Frame.short 1 2).valid = true ∧ 0 < (wire (.short 1 2)).length ∧ 4 < (wire (.short 1 2)).length
    ∧ ([] : List Byte).length < 4 ∧ ([1, 2, 3] : List Byte).length < 4
    ∧ ([] : List Byte).length + 2 < (0 : Byte).toNat + 6 ∧ bs.length + 2 < (255 : Byte).toNat + 6 := by
  refine ⟨by decide, by decide, by decide, by decide, by decide, by decide, ?_⟩
  rw [h]; decide

/-- C and CS of a frame with the shortest payload. -/
theorem witness_OneChangedByteIsAChecksumError :
    (0xFF : Byte) ≠ (wire (.long 8 1 0x72 [0])).getD 4 0 ∧ 8 ≤ ([0] : List Byte).length + 7
    ∧ (0xFF : Byte) ≠ (wire (.long 8 1 0x72 [0])).getD 8 0 := by decide

theorem witness_BytesAfterAFinishedAttemptDoNotMatter :
    HandsBack (.decode [0xE5]) State.reset (.decoded (.ok .ack 1)) ∧ DecodeResult.ok .ack 1 ≠ .incomplete
    ∧ exec (.feed [0x10, 0x40]) State.reset = .next (run (.feed [0x10, 0x40]) State.reset) := ⟨rfl, by decide, rfl⟩

theorem witness_FeedingIsRepeatedDecoding : CleanRx (rxAt .hunt 0 0xFF) ∧ (rxAt .hunt 0 0xFF).rx.body.wf := by decide

/-- Two hunting states that differ in their registers. -/
theorem witness_EarlierFramesDoNotInfluenceReception :
    CleanRx State.reset ∧ CleanRx (rxAt .hunt 0 0xFF) ∧ State.reset ≠ rxAt .hunt 0 0xFF
    ∧ State.reset.rx.body.wf ∧ (rxAt .hunt 0 0xFF).rx.body.wf
    ∧ exec (.feed [0x68]) State.reset = .next (run (.feed [0x68]) State.reset)
    ∧ exec (.feed [0x68]) (rxAt .hunt 0 0xFF) = .next (run (.feed [0x68]) (rxAt .hunt 0 0xFF)) :=
  ⟨by decide, by decide, by decide, by decide, by decide, rfl, rfl⟩

theorem witness_AVerdictComesWithin261Bytes : RxSeqOk (rxAt .long 1 0).rx ∧ (List.replicate 261 (0 : Byte)).length = 261 :=
  ⟨by decide, List.length_replicate⟩

theorem witness_EveryStepKeepsTheInvariant :
    Inv (withInputs [.coded .channel [0xE5]])
    ∧ step (withInputs [.coded .channel [0xE5]]) = .next (after (step (withInputs [.coded .channel [0xE5]]))) :=
  ⟨⟨by decide, by decide, by decide⟩, rfl⟩

theorem witness_ReceivePathInvariants :
    RxSeqOk (rxAt .short 1 0).rx ∧ SumOk (rxAt .short 1 0).rx ∧ (rxAt .short 1 0).rx.body.wf
    ∧ exec (.rxByte 0x40) (rxAt .short 1 0) = .next (run (.rxByte 0x40) (rxAt .short 1 0))
    ∧ (run (.rxByte 0x40) (rxAt .short 1 0)).rx.state ≠ .hunt
    ∧ (run (.rxByte 0x40) (rxAt .short 1 0)).rx = { Rx.reset with state := .short, cnt := 2, body := [(0, 0x40)], sum := 0x40 }
    ∧ State.reset.rx.state = .hunt :=
  ⟨by decide, by decide, by decide, rfl, by decide, by decide, rfl⟩

/-- An operation, a burst, a channel byte and a record item of its payload. -/
theorem witness_NoOfferedInputStopsTheBlock :
    Inv State.reset ∧ offered State.reset (.op .txStep) = true ∧ offered State.reset (.coded .frame []) = true
    ∧ offered State.reset (.coded .channel [0x00]) = true
    ∧ offered State.reset (.op (.recDecode [4, 6, 1, 0, 0, 0] ⟨0, 6, 4, [], 6, [], 2, 4⟩)) = true :=
  ⟨⟨by decide, by decide, by decide⟩, by decide, by decide, by decide, by decide⟩

theorem witness_ConfigurationIsFixedAndEventsAreKept :
    step State.reset = .next State.reset ∧ ChannelEmpty (withInputs [.op .txStep, .coded .vif [6]])
    ∧ step (withInputs [.op .txStep, .coded .vif [6]]) = .next (withInputs [.coded .vif [6]]) :=
  ⟨rfl, by decide, rfl⟩

/-- Bytes that arrive are bytes of the channel, however they are presented. -/
theorem test_channel_not_empty :
    ¬ChannelEmpty (withInputs [.op (.rxByte 0x68)]) ∧ ¬ChannelEmpty (withInputs [.op (.feed [0x68])])
    ∧ ¬ChannelEmpty (withInputs [.op .rxHuntAck]) ∧ ¬ChannelEmpty (withInputs [.op (.frameShort 1 2)])
    ∧ ¬ChannelEmpty (withInputs [.coded .channel [0x68]]) ∧ ChannelEmpty (withInputs [.op (.decode [0x68])]) := by decide

theorem witness_InstancesAreIndependent :
    stepAt 0 [State.reset, sendingAck] = .next [State.reset, sendingAck]
    ∧ stepAt 1 [State.reset, sendingAck] = .next [State.reset, sendingAck]
    ∧ ([State.reset, sendingAck] : System)[1]? = some sendingAck ∧ step sendingAck = .next sendingAck :=
  ⟨rfl, rfl, rfl, rfl⟩

theorem witness_ReceiveAndTransmitStepsCommute :
    exec (.rxByte 0xE5) sendingAck = .next (run (.rxByte 0xE5) sendingAck)
    ∧ exec .txStep (run (.rxByte 0xE5) sendingAck) = .next (run .txStep (run (.rxByte 0xE5) sendingAck))
    ∧ exec .txStep sendingAck = .next (run .txStep sendingAck) := ⟨rfl, rfl, rfl⟩

/-- A request of each kind that can be encoded. -/
theorem witness_TxStartLoadsTheFrame (p : List Byte) (h : p.length = 252) :
    State.reset.tx.state = .idle ∧ (encodeReq ⟨.ack, 1, 2, 3, [4]⟩).isSome ∧ (encodeReq ⟨.short, 1, 2, 3, [4]⟩).isSome
    ∧ (encodeReq ⟨.control, 1, 2, 3, [4]⟩).isSome ∧ (encodeReq ⟨.long, 1, 2, 3, []⟩).isSome
    ∧ (encodeReq ⟨.long, 1, 2, 3, p⟩).isSome := by
  refine ⟨by decide, by decide, by decide, by decide, by decide, ?_⟩
  simp [encodeReq, h]

theorem witness_TxStartIsRejected (p : List Byte) (h : p.length = 253) :
    sendingAck.tx.state = .sending ∧ State.reset.tx.state = .idle ∧ 252 < (TxReq.mk .long 0 0 0 p).payload.length := by
  simp [sendingAck, State.reset, Tx.reset, h]

/-- The last byte of a frame, the first of another, and nothing to send. -/
theorem witness_TxStepEmitsTheNextByte :
    TxOk sendingAck.tx ∧ sendingAck.tx.state = .sending ∧ sendingAck.tx.pos + 1 = sendingAck.tx.len
    ∧ TxOk { sendingAck.tx with kind := .short, len := 5 } ∧ State.reset.tx.state = .idle := by decide

theorem witness_TheImageIsConstantWhileSending :
    sendingAck.tx.state = .sending ∧ exec .txStep sendingAck = .next (run .txStep sendingAck)
    ∧ State.reset.tx.pay.wf ∧ State.reset.tx.state = .idle
    ∧ exec (.txStart ⟨.ack, 0, 0, 0, []⟩) State.reset = .next (run (.txStart ⟨.ack, 0, 0, 0, []⟩) State.reset)
    ∧ (run (.txStart ⟨.ack, 0, 0, 0, []⟩) State.reset).tx.state = .sending :=
  ⟨rfl, rfl, by decide, rfl, rfl, rfl⟩

theorem witness_SendEmitsTheWireImage (p : List Byte) (h : p.length = 253) :
    CleanTx State.reset ∧ State.reset.tx.pay.wf ∧ encodeReq ⟨.short, 1, 2, 0, []⟩ = some [0x10, 1, 2, 3, 0x16]
    ∧ encodeReq ⟨.long, 1, 2, 3, p⟩ = none := by
  refine ⟨by decide, by decide, by decide, ?_⟩
  simp [encodeReq, h]

theorem witness_SendWhileBusyFinishesTheFrameInProgress : TxOk sendingAck.tx ∧ sendingAck.tx.state = .sending := by decide

theorem witness_TheShapeOfAWireImage :
    encodeReq ⟨.ack, 1, 2, 3, [4]⟩ = some [0xE5] ∧ encodeReq ⟨.short, 1, 2, 3, [4]⟩ = some [0x10, 1, 2, 3, 0x16]
    ∧ encodeReq ⟨.control, 1, 2, 3, [4]⟩ = some [0x68, 3, 3, 0x68, 1, 2, 3, 6, 0x16]
    ∧ encodeReq ⟨.long, 1, 2, 3, [4]⟩ = some [0x68, 4, 4, 0x68, 1, 2, 3, 4, 10, 0x16] := by decide

theorem witness_RxFlushAbandonsTheFrame :
    RxSeqOk State.reset.rx ∧ State.reset.rx.state = .hunt
    ∧ exec .rxFlush (rxAt .long 2 9) = .next (run .rxFlush (rxAt .long 2 9)) := ⟨by decide, rfl, rfl⟩

/-- The last element of each buffer, and the empty read behind it. -/
theorem witness_HostReadsReturnTheCurrentValue :
    254 + 1 ≤ 255 ∧ 255 + 0 ≤ 255 ∧ 251 + 1 ≤ 252
    ∧ ((rxAt .short 1 0).rx.state = .short ∧ (rxAt .long 1 0).rx.state = .long ∧ State.reset.rx.state = .hunt)
    ∧ (sendingAck.tx.state = .sending ∧ State.reset.tx.state = .idle ∧ State.reset.tx.kind = .ack)
    ∧ (State.reset.res.code = .none ∧ sendingAck.tx.code = .frameOk ∧ State.reset.res.kind = .ack) := by decide

/-- A record with a chain of each kind, and one with the longest text. -/
theorem witness_AWholeRecordIsARecordItem (text : List Byte) (h : text.length = 191) :
    difLookup State.reset.cfg (dataCode 0x95) ≠ .special ∧ chainForm 0x95 [0x01] = true
    ∧ ([0x01] : List Byte).length ≤ State.reset.cfg.maxDife
    ∧ vifEntry State.reset.cfg (valueCode 0x93) ≠ .plainText ∧ chainForm 0x93 [0x3C] = true
    ∧ ([0x3C] : List Byte).length ≤ State.reset.cfg.maxVife
    ∧ dataFits (difLookup State.reset.cfg (dataCode 0x95)) [1, 2, 3, 4] = true
    ∧ dataFits (difLookup State.reset.cfg (dataCode 0x0D)) (0xBF :: text) = true := by
  refine ⟨by decide, by decide, by decide, by decide, by decide, by decide, by decide, ?_⟩
  have h' : difLookup State.reset.cfg (dataCode 0x0D) = .varLen := by decide
  rw [h']
  simp [dataFits, dataBytesOf, h]

/-- Each way a header stops. -/
theorem witness_WhereARecordHeaderStops :
    ([4] : List Byte).length ≤ 1
    ∧ (topBit 0x84 = true ∧ difLookup State.reset.cfg (dataCode 0x84) ≠ .special
      ∧ (List.replicate 10 (0x81 : Byte)).length ≤ State.reset.cfg.maxDife
      ∧ State.reset.cfg.maxDife < (List.replicate 10 (0x81 : Byte) ++ [0x01]).length
      ∧ ∀ b ∈ (List.replicate 10 (0x81 : Byte) ++ [0x01]).take State.reset.cfg.maxDife, topBit b = true)
    ∧ chainForm 0x04 [] = true ∧ vifEntry State.reset.cfg (valueCode 0x7C) = .plainText
    ∧ (vifEntry State.reset.cfg (valueCode 0x93) ≠ .plainText ∧ topBit 0x93 = true
      ∧ (List.replicate 10 (0x81 : Byte)).length ≤ State.reset.cfg.maxVife
      ∧ State.reset.cfg.maxVife < (List.replicate 10 (0x81 : Byte) ++ [0x01]).length)
    ∧ dataBytesOf (difLookup State.reset.cfg (dataCode 0x04)) = .fixed 4
    ∧ difLookup State.reset.cfg (dataCode 0x0D) = .varLen ∧ 0xC0 ≤ (0xC0 : Byte).toNat ∧ (0xBF : Byte).toNat < 0xC0 := by
  decide

theorem witness_SpecialDifBytes :
    difLookup State.reset.cfg (dataCode 0x0F) = .special ∧ difLookup State.reset.cfg 0xF = .special
    ∧ (Instr.difSpecialOther 0x3F).wf = true := by decide

/-- An offset at the end of the payload and one past it. -/
theorem witness_RecScanIsItsLoop : ([0x2F] : List Byte).length < 2 ∧ 1 ≤ ([0x2F] : List Byte).length := by decide

theorem witness_ScanItemsTileThePayload : 0 ≤ ([4, 6, 1, 0, 0, 0] : List Byte).length ∧ 6 ≤ ([4, 6, 1, 0, 0, 0] : List Byte).length := by
  decide

/-- Two payloads that differ before the offset, under two configurations that differ in `VIFE_ROM`. -/
theorem witness_WhatAScanDependsOn :
    ([0, 2, 6, 1, 0] : List Byte).drop 1 = ([9, 2, 6, 1, 0] : List Byte).drop 1 ∧ 1 ≤ ([0, 2, 6, 1, 0] : List Byte).length
    ∧ HandsBack (.recScan [0, 2, 6, 1, 0] 1) State.reset (.items [.record ⟨1, 5, 2, [], 6, [], 3, 2⟩])
    ∧ HandsBack (.recScan [9, 2, 6, 1, 0] 1)
        { State.reset with cfg := { defaultConfig with vifeRom := [⟨0x86, [0], .reserved⟩] } }
        (.items [.record ⟨1, 5, 2, [], 6, [], 3, 2⟩]) := ⟨by decide, by decide, rfl, rfl⟩

theorem witness_RecordItemsDecodeToReadings :
    recHeader State.reset.cfg [2, 6, 1, 0] 0 = some (.item (.record ⟨0, 4, 2, [], 6, [], 2, 2⟩))
    ∧ recordsOf (recScan State.reset.cfg [2, 6, 1, 0] 0) = [⟨0, 4, 2, [], 6, [], 2, 2⟩] := by decide

/-- A configuration whose `VIFE_ROM` resolves one chain after an energy and one after 0xFD. -/
def vifeState : State :=
  { State.reset with
    cfg :=
      { defaultConfig with
        vifeRom := [⟨0x86, [0], .known .energy .joule 0⟩, ⟨0xFD, [0x17], .known .volume .cubicMetre 0⟩] } }

theorem witness_VifLookupResolvesOrSaysWhy :
    vifEntry vifeState.cfg (valueCode 0x86) = .known .energy .wattHour 3
    ∧ vifeEntry vifeState.cfg 0x86 [0] = some (.known .energy .joule 0) ∧ vifeEntry vifeState.cfg 0x86 [1] = none
    ∧ vifEntry vifeState.cfg (valueCode 0xFD) = .extTable .fd ∧ topBit 0x7D = false ∧ topBit 0xFD = true
    ∧ vifeEntry vifeState.cfg 0xFD [0x17] = some (.known .volume .cubicMetre 0) ∧ vifeEntry vifeState.cfg 0xFD [] = none
    ∧ vifEntry vifeState.cfg (valueCode 0x6F) = .reserved ∧ vifEntry vifeState.cfg (valueCode 0x7E) = .anyVif
    ∧ vifEntry vifeState.cfg (valueCode 0xFF) = .mfrSpecific ∧ vifEntry vifeState.cfg (valueCode 0x7C) = .plainText := by
  decide

theorem witness_RecordByteRowsHandBackTheirFields :
    encode (.dif 1 0 1 5) = some (.dif, [0x95]) ∧ encode (.dife 1 1 1 2) = some (.dife, [0xD2])
    ∧ encode (.vif 1 0x13) = some (.vif, [0x93]) ∧ encode (.vife 0 0x3C) = some (.vife, [0x3C])
    ∧ encode (.difFuncInstantaneous 1 0 4) = some (.difFunction, [0x84])
    ∧ encode (.difFuncMaximum 1 0 5) = some (.difFunction, [0x95]) ∧ encode (.difFuncMinimum 0 0 2) = some (.difFunction, [0x22])
    ∧ encode (.difFuncError 0 1 2) = some (.difFunction, [0x72]) := by decide

/-- A chain of 10 bytes meets the bound of the last clause. -/
theorem witness_DifeAccIsTheClosedSum : (List.replicate 10 (0xFF : Byte)).length ≤ 10 := by decide

theorem witness_IntegersAreLittleEndianTwosComplement :
    ([0x00, 0x80] : List Byte).length = intBytes .w2 ∧ isNoValue (sentinelsOf State.reset.cfg (.int .w2)) [0x00, 0x80] = false := by
  decide

theorem witness_NoValueOnlyForSentinelFields :
    HandsBack (.extract (.bcd 4) [0xFF, 0xFF]) State.reset (.value .noValue)
    ∧ HandsBack (.extract .real32 [0x7F, 0x7F, 0x7F, 0x7F]) State.reset (.value .noValue) ∧ defaultConfig.noValue = [] :=
  ⟨rfl, rfl, rfl⟩

theorem witness_BcdDigitsGiveTheirNumber :
    4 % 2 = 0 ∧ ([0x99, 0x99] : List Byte).length = 4 / 2
    ∧ isNoValue (sentinelsOf State.reset.cfg (.bcd 4)) [0x99, 0x99] = false
    ∧ (∀ b ∈ ([0x99, 0x99] : List Byte), bits b 7 4 ≤ 9 ∧ bits b 3 0 ≤ 9)
    ∧ isNoValue (sentinelsOf State.reset.cfg (.bcd 4)) [0xA0, 0x00] = false
    ∧ (∃ b ∈ ([0xA0, 0x00] : List Byte), 9 < bits b 7 4 ∨ 9 < bits b 3 0) := by decide

theorem witness_TextEmptyAndRealValues :
    isNoValue (sentinelsOf State.reset.cfg .real32) [0x00, 0x00, 0x80, 0x3F] = false := by decide

theorem witness_TheTableRowsReadTheConfiguredRoms :
    encode (.difDataCBcd8 1 0 0) = some (.difData, [0x8C]) ∧ bits 0x8C 3 0 = 12
    ∧ encode (.vif7FMfrSpecific 1) = some (.vifCode, [0xFF]) ∧ bits 0xFF 6 0 = 127 := by decide

theorem witness_TheDefaultTables : State.reset.cfg.difRom = defaultDifRom ∧ State.reset.cfg.vifRom = defaultVifRom := ⟨rfl, rfl⟩

/-- A reading of each clause. -/
theorem witness_TheFinalValueIsRawTimesTheScale :
    (∃ r : Reading, r.tag = .resolved .energy .wattHour 3 ∧ r.value = .num (-1))
    ∧ (∃ r : Reading, r.tag = .resolved .power .watt (-3) ∧ r.value = .real 0) ∧ (∃ x : Real, binary32 0 = .number x)
    ∧ (∃ r : Reading, r.value = .noValue) ∧ ∃ r : Reading, r.tag = .unknown .anyVif :=
  ⟨⟨⟨.resolved .energy .wattHour 3, .num (-1), 0, 0, 0, .instantaneous, 6, [], []⟩, rfl, rfl⟩,
    ⟨⟨.resolved .power .watt (-3), .real 0, 0, 0, 0, .instantaneous, 0x28, [], []⟩, rfl, rfl⟩, ⟨_, rfl⟩,
    ⟨⟨.unknown .anyVif, .noValue, 0, 0, 0, .instantaneous, 6, [], []⟩, rfl⟩,
    ⟨⟨.unknown .anyVif, .noValue, 0, 0, 0, .instantaneous, 6, [], []⟩, rfl⟩⟩

/-! ### Steps -/

/-- A word of each kind of row, stored where the next step fetches, runs as the first instruction after reset. -/
theorem test_first_step :
    (after (step (State.reset.withFetchWord 40 0x1641014010))).events = [.frameOk (.short 0x40 0x01) 5]
    ∧ (after (step (State.reset.withFetchWord 8 0x10))).rx.state = .short
    ∧ (after (step (State.reset.withFetchWord 8 0x13))).answers = [.entry (.known .volume .cubicMetre (-3))]
    ∧ (after (step (State.reset.withFetchWord 8 0x04))).answers = [.dataField (.int .w4) (.fixed 4)] := by decide

/-- A trace line's input events (30_encoding.md R101). -/
theorem test_trace_lines :
    (TraceLine.rx [0xE5, 0x10]).inputs defaultConfig = [.coded .channel [0xE5], .coded .channel [0x10]]
    ∧ (TraceLine.txStep 2).inputs defaultConfig = [.op .txStep, .op .txStep]
    ∧ (TraceLine.decode [0x04, 0x06]).inputs defaultConfig = [.op (.recHeader [0x04, 0x06] 0)] := by decide

/-- The text of a line (30_encoding.md R101), with the bytes of EN10. -/
theorem test_trace_text :
    (TraceLine.rx [0x68, 0x0A]).text = "rx 68 0A".toList
    ∧ (TraceLine.txLong 0x08 0x05 0x72 [0xAA, 0xBB]).text = "tx long C=08 A=05 CI=72 P=AA BB".toList := by decide

end Sys2Proof.Tests
end

section
/-! PROOF. A failed verdict and the frame registers (10_state.md R34; 60_exceptions.md R280). -/

namespace Sys2Proof.Machine

/-- No failed verdict has the code of a good frame (60_exceptions.md R271). -/
theorem rxErrorCode_ne_frameOk (k : RxError) : rxErrorCode k ≠ .frameOk := by
  cases k <;> decide

/-- A receive step whose event is an `Error` is error entry for that kind and count: no other way out of the step emits
one. -/
theorem eq_raiseError_of_rxStep_event_error {b v : Byte} {rx : Rx} {res : Res} {o : RxOut} {k : RxError} {n : Nat}
    (h : rxStep b rx res = some o) (he : o.event = some (.error k n v)) : ∃ w, o = raiseError k n w rx res := by
  rcases rxStep_verdict h with ⟨hnone, -, -⟩ | ⟨k', n', w, rfl, -⟩ | ⟨f, n', rfl, -⟩
  · simp [hnone] at he
  · simp only [raiseError, Option.some.injEq, Event.error.injEq] at he
    obtain ⟨rfl, rfl, -⟩ := he
    exact ⟨w, rfl⟩
  · simp [completeFrame] at he

/-- The event a receive step appends is the one it emits. -/
theorem event_of_applyRx_events {s : State} {o : RxOut} {e : Event} (h : (applyRx s o).events = s.events ++ [e]) :
    o.event = some e := by
  rw [applyRx_events] at h
  exact Option.toList_eq_singleton_iff.mp (List.append_cancel_left h)

end Sys2Proof.Machine

section

open Sys2Proof Sys2Proof.Machine

/-- Settles O13: the step that emits an `Error` is error entry, which writes only `res_code`, `res_consumed` and
`res_byte` of the result registers. -/
theorem aFailedVerdictKeepsTheLastGoodFrame : Obligations.AFailedVerdictKeepsTheLastGoodFrame := by
  unfold Obligations.AFailedVerdictKeepsTheLastGoodFrame
  intro s t b k n v hexec hevents
  obtain ⟨o, hstep, rfl⟩ := receive_next hexec
  obtain ⟨w, rfl⟩ := eq_raiseError_of_rxStep_event_error hstep (event_of_applyRx_events hevents)
  exact ⟨rxErrorCode_ne_frameOk k, rfl, rfl, rfl, rfl, rfl, rfl⟩

end
end

section
/-! PROOF. The arrival of a byte as its row or as `RX_BYTE`, and the receive step of each position written out
(40_rx_framer.md R110 to R118). -/

namespace Sys2Proof.Machine

/-! ### A class row is the arrival of its byte -/

/-- A class row is its own effect under a condition, and the arrival of its byte elsewhere (log 7). -/
theorem exec_classByte_eq_receiveClass {i : Instr} {b : Byte} (h : i.classByte b) (s : State) :
    ∃ applies own, exec i s = receiveClass applies own b s := by
  cases i <;> simp only [Instr.classByte, encode, Option.some.injEq, Prod.mk.injEq, reduceCtorEq, false_and,
    List.cons.injEq, and_true, true_and] at h
  all_goals subst h; exact ⟨_, _, rfl⟩

/-- A class row does what the arrival of its byte does (40_rx_framer.md R110): where its own effect stands, that is where
the row goes on, and there its byte has been received. -/
theorem exec_classByte_eq_receive {i : Instr} {b : Byte} (h : i.classByte b) (s : State) : exec i s = receive b s := by
  obtain ⟨applies, own, hexec⟩ := exec_classByte_eq_receiveClass h s
  cases applies with
  | false => exact hexec
  | true =>
    have hnext : exec i s = .next (applyRx s own) := hexec
    rw [hnext, exec_class_next i b h hnext]

/-- The row of a byte and `RX_BYTE` of it make the receive step of the byte. -/
theorem exec_arrival {row i : Instr} {b : Byte} {s : State} {o : RxOut} (hrow : row.classByte b)
    (hi : i = row ∨ i = .rxByte b) (hstep : rxStep b s.rx s.res = some o) : exec i s = .next (applyRx s o) := by
  rcases hi with rfl | rfl
  · rw [exec_classByte_eq_receive hrow, receive_of_rxStep hstep]
  · exact receive_of_rxStep hstep

/-! ### The receive step of each position -/

section

variable {rx : Rx} (b : Byte) (res : Res)

theorem rxStep_of_hunt (hst : rx.state = .hunt) : rxStep b rx res = some (rxHunt b rx res) := by
  simp [rxStep, hst]

theorem rxStep_of_shortBody (hst : rx.state = .short) (h1 : 1 ≤ rx.cnt) (h3 : rx.cnt ≤ 3) :
    rxStep b rx res = some (rxShortBody b rx res) := by
  simp [rxStep, hst, h1, h3]

theorem rxStep_of_shortStop (hst : rx.state = .short) (hcnt : rx.cnt = 4) :
    rxStep b rx res = some (rxShortStop b rx res) := by
  simp [rxStep, hst, hcnt]

theorem rxStep_of_longBody (hst : rx.state = .long) (hcnt : rx.cnt = 1 ∨ (2 ≤ rx.cnt ∧ rx.cnt ≤ rx.l1.toNat + 4)) :
    rxStep b rx res = some (rxLongBody b rx res) := by
  simp [rxStep, hst, hcnt]

theorem rxStep_of_longStop (hst : rx.state = .long) (hcnt : rx.cnt = rx.l1.toNat + 5) :
    rxStep b rx res = some (rxLongStop b rx res) := by
  simp [rxStep, hst, hcnt]

end

/-- Outside `HUNT` no receive step completes an Acknowledge (40_rx_framer.md R111). -/
theorem state_eq_hunt_of_rxStep_event_ack {b : Byte} {rx : Rx} {res : Res} {o : RxOut} {n : Nat}
    (h : rxStep b rx res = some o) (he : o.event = some (.frameOk .ack n)) : rx.state = .hunt := by
  rcases rxStep_verdict h with ⟨hnone, -, -⟩ | ⟨k, m, v, rfl, -⟩ | ⟨f, m, rfl, hframe⟩
  · simp [hnone] at he
  · simp [raiseError] at he
  · simp only [completeFrame, Option.some.injEq, Event.frameOk.injEq] at he
    obtain ⟨rfl, -⟩ := he
    have hack : rx.state = .hunt ∧ m = 1 := by simpa using hframe
    exact hack.1

/-! ### A step without an event, and the two stop positions -/

/-- A receive step that leaves the result registers and emits nothing writes the receive path only. -/
theorem applyRx_silent (s : State) (rx : Rx) : applyRx s { rx := rx, res := s.res, event := none } = { s with rx := rx } := by
  simp [applyRx]

/-- The verdict of a Short frame on the block (40_rx_framer.md R115). -/
theorem applyRx_rxShortStop (s : State) (b : Byte) :
    applyRx s (rxShortStop b s.rx s.res) =
      if b ≠ stopByte then errorVerdict s .lengthMismatch 5 0
      else if s.rx.cs ≠ s.rx.sum then errorVerdict s .checksumError 5 0
      else goodVerdict s (.short (s.rx.body.read 0) (s.rx.body.read 1)) 5 := by
  simp only [rxShortStop, apply_ite (applyRx s), applyRx_raiseError, applyRx_completeFrame]

/-- The verdict of a Control or Long frame on the block, its payload read element by element (40_rx_framer.md R118). -/
theorem applyRx_rxLongStop (s : State) (b : Byte) :
    applyRx s (rxLongStop b s.rx s.res) =
      if s.rx.l2 ≠ s.rx.l1 then errorVerdict s .lengthMismatch (s.rx.l1.toNat + 6) 0
      else if s.rx.s2 ≠ startLong then errorVerdict s .lengthMismatch (s.rx.l1.toNat + 6) 0
      else if s.rx.l1.toNat < lMin then errorVerdict s .lengthMismatch (s.rx.l1.toNat + 6) 0
      else if b ≠ stopByte then errorVerdict s .lengthMismatch (s.rx.l1.toNat + 6) 0
      else if s.rx.cs ≠ s.rx.sum then errorVerdict s .checksumError (s.rx.l1.toNat + 6) 0
      else if s.rx.l1.toNat = lMin then
        goodVerdict s (.control (s.rx.body.read 0) (s.rx.body.read 1) (s.rx.body.read 2)) 9
      else
        goodVerdict s
          (.long (s.rx.body.read 0) (s.rx.body.read 1) (s.rx.body.read 2)
            ((List.range (s.rx.l1.toNat - 3)).map fun k => s.rx.body.read (3 + k)))
          (s.rx.l1.toNat + 6) := by
  simp only [rxLongStop, apply_ite (applyRx s), applyRx_raiseError, applyRx_completeFrame, readRange_map]

end Sys2Proof.Machine

section

open Sys2Proof Sys2Proof.Machine

/-- Settles O5: each byte's case of the step in `HUNT`; outside `HUNT` no step completes an Acknowledge. -/
theorem aByteInHunt : Obligations.AByteInHunt := by
  unfold Obligations.AByteInHunt
  refine ⟨?ack, ?inFrame, ?startShort, ?startLong, ?other⟩
  case ack =>
    intro s i hst hi
    rw [exec_arrival rfl hi (rxStep_of_hunt _ _ hst)]
    exact congrArg _ (applyRx_completeFrame s .ack 1)
  case inFrame =>
    intro s t hst hexec hevents
    obtain ⟨o, hstep, rfl⟩ := receive_next hexec
    exact hst (state_eq_hunt_of_rxStep_event_ack hstep (event_of_applyRx_events hevents))
  case startShort =>
    intro s i hst hi
    rw [exec_arrival rfl hi (rxStep_of_hunt _ _ hst)]
    exact congrArg _ (applyRx_silent s _)
  case startLong =>
    intro s i hst hi
    rw [exec_arrival rfl hi (rxStep_of_hunt _ _ hst)]
    exact congrArg _ (applyRx_silent s _)
  case other =>
    intro s b i hst hack hshort hlong hi
    have hhunt : rxHunt b s.rx s.res = raiseError .framingError 1 b s.rx s.res :=
      (if_neg hack).trans ((if_neg hshort).trans (if_neg hlong))
    rw [exec_arrival rfl hi (rxStep_of_hunt _ _ hst), hhunt, applyRx_raiseError]

/-- Settles O6: the three positions of `rxShortBody`, none of which emits an event. -/
theorem aByteOfAShortFrame : Obligations.AByteOfAShortFrame := by
  unfold Obligations.AByteOfAShortFrame
  intro s b i hst hi
  have hexec (h1 : 1 ≤ s.rx.cnt) (h3 : s.rx.cnt ≤ 3) : exec i s = .next { s with rx := (rxShortBody b s.rx s.res).rx } :=
    (exec_arrival rfl hi (rxStep_of_shortBody b s.res hst h1 h3)).trans (congrArg _ (applyRx_silent s _))
  refine ⟨fun hC => ?_, fun hA => ?_, fun hCS => ?_⟩
  · rw [hexec (by omega) (by omega)]
    simp [rxShortBody, hC]
  · rw [hexec (by omega) (by omega)]
    simp [rxShortBody, hA]
  · rw [hexec (by omega) (by omega)]
    simp [rxShortBody, hCS]

/-- Settles O7: the if chain of the stop position, in the order of R119. -/
theorem theStopOfAShortFrame : Obligations.TheStopOfAShortFrame := by
  unfold Obligations.TheStopOfAShortFrame
  intro s b i hst hcnt hi
  rw [exec_arrival rfl hi (rxStep_of_shortStop b s.res hst hcnt)]
  exact congrArg _ (applyRx_rxShortStop s b)

/-- Settles O8: the five kinds of position of `rxLongBody`, none of which emits an event. -/
theorem aByteOfALongFrame : Obligations.AByteOfALongFrame := by
  unfold Obligations.AByteOfALongFrame
  intro s b i hst hi
  have hexec (hcnt : s.rx.cnt = 1 ∨ (2 ≤ s.rx.cnt ∧ s.rx.cnt ≤ s.rx.l1.toNat + 4)) :
      exec i s = .next { s with rx := (rxLongBody b s.rx s.res).rx } :=
    (exec_arrival rfl hi (rxStep_of_longBody b s.res hst hcnt)).trans (congrArg _ (applyRx_silent s _))
  refine ⟨fun hL1 => ?_, fun hL2 => ?_, fun hS2 => ?_, fun hlo hbody => ?_, fun hlo hCS => ?_⟩
  · rw [hexec (by omega)]
    simp [rxLongBody, hL1]
  · rw [hexec (by omega)]
    simp [rxLongBody, hL2]
  · rw [hexec (by omega)]
    simp [rxLongBody, hS2]
  · obtain ⟨h1, h2, h3⟩ : s.rx.cnt ≠ 1 ∧ s.rx.cnt ≠ 2 ∧ s.rx.cnt ≠ 3 := by omega
    rw [hexec (by omega)]
    simp [rxLongBody, h1, h2, h3, hbody]
  · obtain ⟨h1, h2, h3⟩ : s.rx.cnt ≠ 1 ∧ s.rx.cnt ≠ 2 ∧ s.rx.cnt ≠ 3 := by omega
    have hpast : ¬s.rx.cnt ≤ s.rx.l1.toNat + 3 := by omega
    rw [hexec (by omega)]
    simp [rxLongBody, h1, h2, h3, hpast]

/-- Settles O9: the if chain of the stop position, in the order of R119. -/
theorem theStopOfALongFrame : Obligations.TheStopOfALongFrame := by
  unfold Obligations.TheStopOfALongFrame
  intro s b i hst hcnt hi
  rw [exec_arrival rfl hi (rxStep_of_longStop b s.res hst hcnt)]
  exact congrArg _ (applyRx_rxLongStop s b)

end
end

section
/-! PROOF. One operation of the transmit path in each of its cases (41_tx_encoder.md R152 to R157). -/

namespace Sys2Proof.Machine

/-- The requests that cannot be encoded (41_tx_encoder.md R152). -/
theorem encodeReq_eq_none_iff {req : TxReq} :
    encodeReq req = none ↔ req.kind = .long ∧ maxPayload < req.payload.length := by
  simp [encodeReq]

section

variable {s : State}

theorem startTx_of_sending (req : TxReq) (hs : s.tx.state = .sending) : startTx req s = rejectTx .txBusy s := by
  simp [startTx, hs]

theorem startTx_of_encodeReq_none {req : TxReq} (hs : s.tx.state = .idle) (he : encodeReq req = none) :
    startTx req s = rejectTx .invalidFrame s := by
  simp [startTx, hs, he]

theorem startTx_of_encodeReq_some {req : TxReq} {w : List Byte} (hs : s.tx.state = .idle) (he : encodeReq req = some w) :
    startTx req s =
      { s with tx := loadTx req w (Config.freeTxSum s.freeCount) s.tx, freeCount := s.freeCount + 1 } := by
  simp [startTx, hs, he]

theorem stepTx_of_idle (hs : s.tx.state = .idle) : stepTx s = .next s := by
  simp [stepTx, hs]

/-- The step that emits byte `b`, its two outcomes written as whole states (41_tx_encoder.md R156). -/
theorem stepTx_of_sending {b : Byte} (hs : s.tx.state = .sending) (hb : (txImage s.tx)[s.tx.pos]? = some b) :
    stepTx s = .next
      (if s.tx.pos + 1 = s.tx.len then
        { s with
          tx := { s.tx with state := .idle, pos := 0, sum := Config.freeTxSum s.freeCount }
          events := s.events ++ [.txByte b, .txDone], freeCount := s.freeCount + 1 }
       else
        { s with
          tx := { s.tx with pos := s.tx.pos + 1, sum := Config.freeTxSum s.freeCount }
          events := s.events ++ [.txByte b], freeCount := s.freeCount + 1 }) := by
  simp only [stepTx, hs, hb, advanceTx]
  split <;> rfl

end

/-- What `TXPAY` holds once a request is loaded: below the payload's length the payload, elsewhere what it held
(41_tx_encoder.md R153). -/
theorem read_loadTx_pay {tx : Tx} (hw : tx.pay.wf) (req : TxReq) (image : List Byte) (free : Byte) (a : Nat) :
    (loadTx req image free tx).pay.read a =
      if req.kind = .long ∧ a < req.payload.length then req.payload.getD a 0 else tx.pay.read a := by
  by_cases hk : req.kind = .long
  · simp [loadTx, hk, Memory.read_writeRange _ _ _ hw]
  · simp [loadTx, hk]

end Sys2Proof.Machine

section

open Sys2Proof Sys2Proof.Machine

/-- Settles O33: the state an accepted request loads, and `TXPAY` element by element. -/
theorem txStartLoadsTheFrame : Obligations.TxStartLoadsTheFrame := by
  unfold Obligations.TxStartLoadsTheFrame
  intro s req w hidle hencode
  exact ⟨_, _, congrArg _ (startTx_of_encodeReq_some hidle hencode),
    fun hw => read_loadTx_pay hw req w (Config.freeTxSum s.freeCount)⟩

/-- Settles O34: the two refusals of `startTx`; a Long request of more than 252 bytes has no wire image. -/
theorem txStartIsRejected : Obligations.TxStartIsRejected := by
  unfold Obligations.TxStartIsRejected
  intro s req
  refine ⟨fun hsending => ?_, fun hidle hlong hlen => ?_⟩
  · exact congrArg _ (startTx_of_sending req hsending)
  · have hnone : encodeReq req = none := encodeReq_eq_none_iff.mpr ⟨hlong, hlen⟩
    exact congrArg _ (startTx_of_encodeReq_none hidle hnone)

/-- Settles O35: in `SENDING` the image has a byte at `tx_pos`, so the step does not fault. -/
theorem txStepEmitsTheNextByte : Obligations.TxStepEmitsTheNextByte := by
  unfold Obligations.TxStepEmitsTheNextByte
  refine ⟨fun s hok hsending => ?_, fun s hidle => stepTx_of_idle hidle⟩
  obtain ⟨b, hb⟩ := stepTx_some hok hsending
  exact ⟨b, _, _, hb, stepTx_of_sending hsending hb⟩

end
end

section
/-! PROOF. The DIF byte's fields and the VIF lookup in each of its cases (43_dif_vif_rom.md R203, R212, R213). -/

namespace Sys2Proof.Machine

/-! ### The fields of a DIF byte -/

/-- A slice of a byte is the spec's `b[hi:lo]` (00_scope.md R10). -/
theorem toNat_extractLsb'_eq_bits (b : Byte) (hi lo : Nat) (hle : lo ≤ hi) :
    (b.extractLsb' lo (hi + 1 - lo)).toNat = bits b hi lo := by
  rw [BitVec.extractLsb'_toNat, bits, Nat.sub_add_comm hle]

/-- A slice of one bit is the spec's `b[i]` (00_scope.md R10). -/
theorem toNat_extractLsb'_eq_bit (b : Byte) (i : Nat) : (b.extractLsb' i 1).toNat = bit b i :=
  BitVec.extractLsb'_toNat i 1 b

/-- The function codes 0 to 3 (30_encoding.md R91). -/
theorem mem_functionCodes (f : BitVec 2) :
    (f.toNat, Func.ofCode f)
      ∈ ([(0, .instantaneous), (1, .maximum), (2, .minimum), (3, .error)] : List (Nat × Func)) := by
  revert f
  decide

/-! ### The entry of a VIFE chain -/

section

variable {cfg : Config} {vif : Byte} {vifes : List Byte}

theorem vifeResult_of_known {q : Quantity} {u : PhysUnit} {sc : Int} (reason : UnknownReason)
    (h : vifeEntry cfg vif vifes = some (.known q u sc)) : vifeResult cfg vif vifes reason = .resolved q u sc := by
  simp only [vifeResult, h]

/-- Any entry that is not `Known`, and no entry, leave the chain unresolved (43_dif_vif_rom.md R213). -/
theorem vifeResult_of_ne_known (reason : UnknownReason)
    (h : ∀ q u sc, vifeEntry cfg vif vifes ≠ some (.known q u sc)) :
    vifeResult cfg vif vifes reason = .unknown reason := by
  unfold vifeResult
  split
  next q u sc hknown => exact absurd hknown (h q u sc)
  all_goals rfl

/-! ### The entry of the VIF code -/

theorem vifLookup_of_known_nil {q : Quantity} {u : PhysUnit} {sc : Int}
    (h : vifEntry cfg (valueCode vif) = .known q u sc) : vifLookup cfg vif [] = .resolved q u sc := by
  simp [vifLookup, h]

theorem vifLookup_of_known_chain {q : Quantity} {u : PhysUnit} {sc : Int}
    (h : vifEntry cfg (valueCode vif) = .known q u sc) (hchain : vifes ≠ []) :
    vifLookup cfg vif vifes = vifeResult cfg vif vifes .unresolvedVife := by
  simp [vifLookup, h, hchain]

theorem vifLookup_of_extTable_final {t : ExtTable} (h : vifEntry cfg (valueCode vif) = .extTable t)
    (hlast : topBit vif = false) : vifLookup cfg vif vifes = .unknown .reservedVif := by
  simp [vifLookup, h, hlast]

theorem vifLookup_of_extTable_extended {t : ExtTable} (h : vifEntry cfg (valueCode vif) = .extTable t)
    (hext : topBit vif = true) : vifLookup cfg vif vifes = vifeResult cfg vif vifes .extensionUnresolved := by
  simp [vifLookup, h, hext]

theorem vifLookup_of_reserved (h : vifEntry cfg (valueCode vif) = .reserved) :
    vifLookup cfg vif vifes = .unknown .reservedVif := by
  simp only [vifLookup, h]

theorem vifLookup_of_anyVif (h : vifEntry cfg (valueCode vif) = .anyVif) :
    vifLookup cfg vif vifes = .unknown .anyVif := by
  simp only [vifLookup, h]

theorem vifLookup_of_mfrSpecific (h : vifEntry cfg (valueCode vif) = .mfrSpecific) :
    vifLookup cfg vif vifes = .unknown .manufacturerSpecific := by
  simp only [vifLookup, h]

theorem vifLookup_of_plainText (h : vifEntry cfg (valueCode vif) = .plainText) :
    vifLookup cfg vif vifes = .refusedPlainText := by
  simp only [vifLookup, h]

end

/-! ### The lookup as an operation -/

section

variable {s : State} {vif : Byte} {vifes : List Byte}

theorem handsBack_vifLookup {r : VifResult} (h : vifLookup s.cfg vif vifes = r) :
    HandsBack (.vifLookup vif vifes) s (.vif r) :=
  h ▸ rfl

/-- Where the lookup is left to `VIFE_ROM`, a `Known` entry resolves it and anything else is `reason`. -/
theorem handsBack_vifLookup_of_vifeResult {reason : UnknownReason}
    (h : vifLookup s.cfg vif vifes = vifeResult s.cfg vif vifes reason) :
    (∀ q u sc, vifeEntry s.cfg vif vifes = some (.known q u sc) →
      HandsBack (.vifLookup vif vifes) s (.vif (.resolved q u sc)))
    ∧ ((∀ q u sc, vifeEntry s.cfg vif vifes ≠ some (.known q u sc)) →
      HandsBack (.vifLookup vif vifes) s (.vif (.unknown reason))) :=
  ⟨fun _ _ _ hknown => handsBack_vifLookup (h.trans (vifeResult_of_known reason hknown)),
    fun hne => handsBack_vifLookup (h.trans (vifeResult_of_ne_known reason hne))⟩

end

end Sys2Proof.Machine

section

open Sys2Proof Sys2Proof.Machine

/-- Settles O51: each field is a slice of the byte. -/
theorem difFieldsAreTheBitsOfTheByte : Obligations.DifFieldsAreTheBitsOfTheByte := by
  unfold Obligations.DifFieldsAreTheBitsOfTheByte
  intro s b
  have hfunc : (b.extractLsb' 4 2).toNat = bits b 5 4 := toNat_extractLsb'_eq_bits b 5 4 (by decide)
  exact ⟨difFieldsOfByte b, rfl, toNat_extractLsb'_eq_bit b 7, toNat_extractLsb'_eq_bit b 6,
    toNat_extractLsb'_eq_bits b 3 0 (by decide), hfunc ▸ mem_functionCodes _⟩

/-- Settles O50: a case for each kind of entry of the VIF code. -/
theorem vifLookupResolvesOrSaysWhy : Obligations.VifLookupResolvesOrSaysWhy := by
  unfold Obligations.VifLookupResolvesOrSaysWhy
  intro s vif vifes
  refine ⟨fun q u sc hknown => ⟨?_, fun hchain => ?_⟩, fun t htable => ⟨fun hlast => ?_, fun hext => ?_⟩,
    fun h => handsBack_vifLookup (vifLookup_of_reserved h), fun h => handsBack_vifLookup (vifLookup_of_anyVif h),
    fun h => handsBack_vifLookup (vifLookup_of_mfrSpecific h), fun h => handsBack_vifLookup (vifLookup_of_plainText h)⟩
  · rintro rfl
    exact handsBack_vifLookup (vifLookup_of_known_nil hknown)
  · exact handsBack_vifLookup_of_vifeResult (vifLookup_of_known_chain hknown hchain)
  · exact handsBack_vifLookup (vifLookup_of_extTable_final htable hlast)
  · exact handsBack_vifLookup_of_vifeResult (vifLookup_of_extTable_extended htable hext)

end
end

section
/-! PROOF. Where `EXTRACT` gives `NoValue` (43_dif_vif_rom.md R220, R221). -/

namespace Sys2Proof.Machine

/-- The sentinels of a field, in words of its bytes (43_dif_vif_rom.md R221). -/
theorem isNoValue_eq_true_iff {t : Sentinels} {d : List Byte} :
    isNoValue t d = true ↔
      d ≠ [] ∧ ((t.ff = true ∧ ∀ b ∈ d, b = 0xFF) ∨ (t.x7f = true ∧ ∀ b ∈ d, b = 0x7F)) := by
  simp [isNoValue]

/-- With no configured row, the default of 43_dif_vif_rom.md R221. -/
theorem sentinelsOf_of_noValue_nil {cfg : Config} (h : cfg.noValue = []) (layout : Layout) :
    sentinelsOf cfg layout = defaultSentinels layout := by
  simp [sentinelsOf, h]

theorem extractBcd_ne_noValue (d : List Byte) : extractBcd d ≠ .noValue := by
  unfold extractBcd
  split <;> simp

/-- A reading that is tested for a sentinel first, and is itself never `NoValue`. -/
theorem some_ite_noValue_eq_iff {special : Bool} {v : Value} (hv : v ≠ .noValue) :
    some (if special then Value.noValue else v) = some .noValue ↔ special = true := by
  cases special <;> simp [hv]

/-- Only the three numeric layouts are tested for a sentinel (43_dif_vif_rom.md R221). -/
theorem extract_eq_noValue_iff {cfg : Config} {layout : Layout} {d : List Byte} :
    extract cfg layout d = some .noValue ↔
      ((∃ k, layout = .int k) ∨ (∃ n, layout = .bcd n) ∨ layout = .real32)
        ∧ isNoValue (sentinelsOf cfg layout) d = true := by
  cases layout with
  | int k => exact (some_ite_noValue_eq_iff (by simp)).trans (by simp)
  | bcd n => exact (some_ite_noValue_eq_iff (extractBcd_ne_noValue d)).trans (by simp)
  | real32 => exact (some_ite_noValue_eq_iff (by simp)).trans (by simp)
  | noData | selection | varLen | special => simp [extract]

/-- `EXTRACT` hands back what it gives, and nothing else. -/
theorem handsBack_extract_iff {s : State} {layout : Layout} {d : List Byte} {v : Value} :
    HandsBack (.extract layout d) s (.value v) ↔ extract s.cfg layout d = some v := by
  have hexec : exec (.extract layout d) s = answerOrRefuse s ((extract s.cfg layout d).map .value) := rfl
  rw [HandsBack, hexec]
  constructor
  · intro h
    obtain ⟨a, hextract, hanswer⟩ := answerOrRefuse_next h
    have ha : a = .value v := by simpa using (congrArg State.answers hanswer).symm
    simpa [ha] using hextract
  · intro h
    rw [h]
    rfl

end Sys2Proof.Machine

section

open Sys2Proof Sys2Proof.Machine

/-- Settles O55: the layouts `EXTRACT` tests for a sentinel, what the test says of the bytes, and the default pairs. -/
theorem noValueOnlyForSentinelFields : Obligations.NoValueOnlyForSentinelFields := by
  unfold Obligations.NoValueOnlyForSentinelFields
  refine ⟨fun s layout d hlayout => ?_, fun s layout d h => ?_, fun cfg hnil => ?_⟩
  · rw [handsBack_extract_iff, extract_eq_noValue_iff, isNoValue_eq_true_iff]
    exact and_iff_right hlayout
  · obtain ⟨-, hsentinel⟩ := extract_eq_noValue_iff.mp (handsBack_extract_iff.mp h)
    obtain ⟨hne, hbytes⟩ := isNoValue_eq_true_iff.mp hsentinel
    exact ⟨hne, hbytes.imp And.right And.right⟩
  · simp [sentinelsOf_of_noValue_nil hnil, defaultSentinels]

end
end

section
/-! PROOF. The final value of a reading in each of its cases (43_dif_vif_rom.md R227). -/

namespace Sys2Proof.Machine

/-- `10^e` of 00_scope.md R12 is the integer power of a field. -/
theorem pow10_eq_zpow {K : Type} [Field K] (e : Int) : pow10 e = (10 : K) ^ e := by
  unfold pow10
  split
  next hnonneg => rw [← zpow_natCast, Int.toNat_of_nonneg hnonneg]
  next hneg => rw [← zpow_natCast, Int.toNat_of_nonneg (by omega), zpow_neg, one_div, inv_inv]

section

variable {K : Type} [Field K] {interp : Word32 → RealVal K} {r : Reading}

theorem finalValue_of_resolved {q : Quantity} {u : PhysUnit} {sc : Int} (htag : r.tag = .resolved q u sc) :
    finalValue interp r = scaledValue interp sc r.value := by
  simp only [finalValue, htag]

theorem finalValue_of_unknown {reason : UnknownReason} (htag : r.tag = .unknown reason) :
    finalValue interp r = none := by
  simp only [finalValue, htag]

theorem scaledValue_num (raw sc : Int) :
    scaledValue interp sc (.num raw) = some (.exact ((raw : Rat) * (10 : Rat) ^ sc)) := by
  simp only [scaledValue, pow10_eq_zpow]

theorem scaledValue_real {w : Word32} {x : K} (h : interp w = .number x) (sc : Int) :
    scaledValue interp sc (.real w) = some (.real (.number (x * (10 : K) ^ sc))) := by
  simp only [scaledValue, h, scaleReal, pow10_eq_zpow]

/-- Text and the sentinels have no value under any scale. -/
theorem scaledValue_eq_none {v : Value} (h : (∃ bs, v = .text bs) ∨ v = .noValue ∨ v = .empty ∨ v = .badBcd)
    (sc : Int) : scaledValue interp sc v = none := by
  rcases h with ⟨bs, rfl⟩ | rfl | rfl | rfl <;> rfl

/-- A value that no scale gives a number has no final value, whatever the tag. -/
theorem finalValue_eq_none (h : ∀ sc, scaledValue interp sc r.value = none) : finalValue interp r = none := by
  unfold finalValue
  split
  next q u sc _ => exact h sc
  all_goals rfl

end

end Sys2Proof.Machine

section

open Sys2Proof Sys2Proof.Machine

/-- Settles O60: the value of each kind under a resolved tag, the values that have none, and the unknown tags. -/
theorem theFinalValueIsRawTimesTheScale : Obligations.TheFinalValueIsRawTimesTheScale := by
  unfold Obligations.TheFinalValueIsRawTimesTheScale
  intro K _ interp r
  refine ⟨fun q u sc raw htag hvalue => ?_, fun q u sc w x htag hvalue hinterp => ?_,
    fun hvalue => finalValue_eq_none (scaledValue_eq_none hvalue), fun reason htag => finalValue_of_unknown htag⟩
  · rw [finalValue_of_resolved htag, hvalue, scaledValue_num]
  · rw [finalValue_of_resolved htag, hvalue, scaledValue_real hinterp]

end
end

section
/-! PROOF. The control operations `RESET` and `RX_FLUSH` (44_control_ops.md R250, R252). -/

namespace Sys2Proof.Machine

theorem exec_reset (s : State) : exec .reset s = .next (resetBlock s) := rfl

theorem exec_rxFlush (s : State) : exec .rxFlush s = .next (flushRx s) := rfl

/-- In `HUNT` there is no frame to abandon: `rx_cnt` is 0 already (40_rx_framer.md R125 (a)). -/
theorem flushRx_of_hunt {s : State} (hseq : RxSeqOk s.rx) (hst : s.rx.state = .hunt) :
    flushRx s = { s with rx := { s.rx with sum := 0 } } := by
  obtain ⟨hhunt, -, -⟩ := hseq
  have hcnt : s.rx.cnt = 0 := hhunt.mp hst
  simp only [flushRx, hst, hcnt]

end Sys2Proof.Machine

section

open Sys2Proof Sys2Proof.Machine

/-- Settles O40: `resetBlock` puts the reset values of 10_state.md R51, and an empty buffer reads 0 everywhere. -/
theorem resetGivesTheResetValues : Obligations.ResetGivesTheResetValues := by
  unfold Obligations.ResetGivesTheResetValues
  exact fun s => ⟨exec_reset s, Memory.read_nil⟩

/-- Settles O41: `flushRx` leaves the path in `HUNT`, where 0xE5 completes an Acknowledge. -/
theorem rxFlushAbandonsTheFrame : Obligations.RxFlushAbandonsTheFrame := by
  unfold Obligations.RxFlushAbandonsTheFrame
  refine ⟨exec_rxFlush, fun s hseq hst => ?inHunt, fun s t hexec => ?thenAck⟩
  case inHunt => rw [exec_rxFlush, flushRx_of_hunt hseq hst]
  case thenAck =>
    obtain ⟨ackInHunt, -⟩ := aByteInHunt
    obtain rfl : flushRx s = t := by simpa [exec_rxFlush] using hexec
    exact ackInHunt (flushRx s) (.rxByte 0xE5) rfl (.inr rfl)

end
end

section
/-! PROOF. `decode(buf)` by the shape of its buffer: what the closed form gives for a Short frame, a Control or Long frame and
a part of one (40_rx_framer.md R131). -/

namespace Sys2Proof

/-- The bytes of a Control or Long frame, whatever stands in each place: `body` is what the checksum covers
(30_encoding.md R81). -/
def longBytes (l1 l2 s2 : Byte) (body : List Byte) (cs stop : Byte) : List Byte :=
  startLong :: l1 :: l2 :: s2 :: (body ++ [cs, stop])

/-- What a buffer holds of the frame it begins: all of it and more, or too little. -/
inductive BufShape : List Byte → Prop where
  | empty : BufShape []
  | ack (t : List Byte) : BufShape (ackByte :: t)
  | noStart (b : Byte) (t : List Byte) : b ≠ ackByte → b ≠ startShort → b ≠ startLong → BufShape (b :: t)
  | shortPart (bs : List Byte) : bs.length < 4 → BufShape (startShort :: bs)
  | shortWhole (c a cs stop : Byte) (t : List Byte) : BufShape ([startShort, c, a, cs] ++ stop :: t)
  | longStart : BufShape [startLong]
  | longPart (l1 : Byte) (bs : List Byte) : bs.length + 2 < l1.toNat + 6 → BufShape (startLong :: l1 :: bs)
  | longWhole (l1 l2 s2 : Byte) (body : List Byte) (cs stop : Byte) (t : List Byte) :
      body.length = l1.toNat → BufShape (longBytes l1 l2 s2 body cs stop ++ t)

theorem bufShape_startShort (bs : List Byte) : BufShape (startShort :: bs) := by
  match bs with
  | c :: a :: cs :: stop :: t => exact .shortWhole c a cs stop t
  | [] | [_] | [_, _] | [_, _, _] => exact .shortPart _ (by simp)

/-- From the fourth byte on, a buffer of the declared length is a body, a checksum, a stop byte and more. -/
theorem exists_body_of_length {n : Nat} {bs : List Byte} (h : n + 2 ≤ bs.length) :
    ∃ body cs stop t, body.length = n ∧ bs = body ++ [cs, stop] ++ t := by
  obtain ⟨cs, stop, t, hdrop⟩ : ∃ cs stop t, bs.drop n = cs :: stop :: t := by
    match hd : bs.drop n with
    | cs :: stop :: t => exact ⟨cs, stop, t, rfl⟩
    | [] | [_] => have := congrArg List.length hd; simp at this; omega
  refine ⟨bs.take n, cs, stop, t, by simp; omega, ?_⟩
  rw [List.append_assoc]
  exact (hdrop ▸ List.take_append_drop n bs).symm

theorem bufShape_startLong (bs : List Byte) : BufShape (startLong :: bs) := by
  cases bs with
  | nil => exact .longStart
  | cons l1 bs =>
    by_cases hpart : bs.length + 2 < l1.toNat + 6
    · exact .longPart l1 bs hpart
    · match bs with
      | [] | [_] => simp at hpart
      | l2 :: s2 :: bs =>
        obtain ⟨body, cs, stop, t, hlen, rfl⟩ : ∃ body cs stop t, body.length = l1.toNat ∧ bs = body ++ [cs, stop] ++ t :=
          exists_body_of_length (by simp at hpart; omega)
        exact .longWhole l1 l2 s2 body cs stop t hlen

/-- Every buffer has one of the shapes. -/
theorem bufShape (buf : List Byte) : BufShape buf := by
  cases buf with
  | nil => exact .empty
  | cons b bs =>
    by_cases hack : b = ackByte
    · exact hack ▸ .ack bs
    by_cases hshort : b = startShort
    · exact hshort ▸ bufShape_startShort bs
    by_cases hlong : b = startLong
    · exact hlong ▸ bufShape_startLong bs
    exact .noStart b bs hack hshort hlong

/-! ### The closed form on each shape -/

/-- The verdict on the bytes of a Short frame (40_rx_framer.md R115). -/
def shortVerdict (c a cs stop : Byte) : DecodeResult :=
  if stop ≠ stopByte then .err .lengthMismatch 5
  else if cs ≠ c + a then .err .checksumError 5
  else .ok (.short c a) 5

/-- The frame whose checksummed bytes these are (30_encoding.md R81, R84). -/
def bodyFrame (body : List Byte) : Frame :=
  if body.length = 3 then .control (body.getD 0 0) (body.getD 1 0) (body.getD 2 0)
  else .long (body.getD 0 0) (body.getD 1 0) (body.getD 2 0) (body.drop 3)

/-- The verdict on the bytes of a Control or Long frame (40_rx_framer.md R118). -/
def longVerdict (l1 l2 s2 : Byte) (body : List Byte) (cs stop : Byte) : DecodeResult :=
  if l2 ≠ l1 ∨ s2 ≠ startLong ∨ l1.toNat < 3 ∨ stop ≠ stopByte then .err .lengthMismatch (l1.toNat + 6)
  else if cs ≠ sum8 body then .err .checksumError (l1.toNat + 6)
  else .ok (bodyFrame body) (l1.toNat + 6)

@[simp] theorem decodeBuf_ack (t : List Byte) : decodeBuf (ackByte :: t) = .ok .ack 1 := by simp [decodeBuf]

theorem decodeBuf_noStart {b : Byte} (t : List Byte) (hack : b ≠ ackByte) (hshort : b ≠ startShort) (hlong : b ≠ startLong) :
    decodeBuf (b :: t) = .err .framingError 1 := by
  simp [decodeBuf, hack, hshort, hlong]

theorem decodeBuf_startShort (bs : List Byte) : decodeBuf (startShort :: bs) = decodeShort (startShort :: bs) := by
  simp [decodeBuf, startShort, ackByte]

theorem decodeBuf_startLong (bs : List Byte) : decodeBuf (startLong :: bs) = decodeLong (startLong :: bs) := by
  simp [decodeBuf, startLong, startShort, ackByte]

theorem decodeBuf_shortPart {bs : List Byte} (h : bs.length < 4) : decodeBuf (startShort :: bs) = .incomplete := by
  rw [decodeBuf_startShort]
  exact if_pos (by simp only [List.length_cons]; omega)

theorem decodeBuf_shortWhole (c a cs stop : Byte) (t : List Byte) :
    decodeBuf ([startShort, c, a, cs] ++ stop :: t) = shortVerdict c a cs stop := by
  simp [decodeBuf_startShort, decodeShort, shortVerdict]

theorem decodeBuf_longStart : decodeBuf [startLong] = .incomplete := by decide

theorem decodeBuf_longPart {l1 : Byte} {bs : List Byte} (h : bs.length + 2 < l1.toNat + 6) :
    decodeBuf (startLong :: l1 :: bs) = .incomplete := by
  rw [decodeBuf_startLong]
  simp [decodeLong, h]

/-- An element past a first part of known length. -/
theorem getD_append_of_length {xs ys : List Byte} {n : Nat} (k : Nat) (h : xs.length = n) :
    (xs ++ ys).getD (n + k) 0 = ys.getD k 0 := by
  subst h
  rw [List.getD_append_right _ _ _ _ (by omega), Nat.add_sub_cancel_left]

theorem decodeBuf_longWhole {l1 : Byte} {body : List Byte} (l2 s2 cs stop : Byte) (t : List Byte)
    (hlen : body.length = l1.toNat) :
    decodeBuf (longBytes l1 l2 s2 body cs stop ++ t) = longVerdict l1 l2 s2 body cs stop := by
  have hstop : (startLong :: l1 :: l2 :: s2 :: (body ++ cs :: stop :: t)).getD (l1.toNat + 6 - 1) 0 = stop := by
    rw [show l1.toNat + 6 - 1 = l1.toNat + 1 + 4 by omega]
    exact getD_append_of_length 1 hlen
  have hcs : (startLong :: l1 :: l2 :: s2 :: (body ++ cs :: stop :: t)).getD (l1.toNat + 6 - 2) 0 = cs := by
    rw [show l1.toNat + 6 - 2 = l1.toNat + 0 + 4 by omega]
    exact getD_append_of_length 0 hlen
  have hbody : (body ++ cs :: stop :: t).take l1.toNat = body := List.take_left' hlen
  have hget (k : Nat) (hk : k < l1.toNat) : (body ++ cs :: stop :: t).getD k 0 = body.getD k 0 :=
    List.getD_append _ _ _ _ (by omega)
  simp only [longBytes, List.cons_append, List.append_assoc, List.nil_append, decodeBuf_startLong]
  unfold decodeLong longVerdict
  simp only [hstop, hcs, List.getD_cons_zero, List.getD_cons_succ, List.drop_succ_cons, List.drop_zero, hbody]
  have hl : ¬ (startLong :: l1 :: l2 :: s2 :: (body ++ cs :: stop :: t)).length < l1.toNat + 6 := by
    simp [hlen]
  rw [if_neg (by simp), if_neg hl]
  by_cases hmis : l2 ≠ l1 ∨ s2 ≠ startLong ∨ l1.toNat < 3 ∨ stop ≠ stopByte
  · rw [if_pos hmis, if_pos hmis]
  rw [if_neg hmis, if_neg hmis]
  have h3 : 3 ≤ l1.toNat := not_lt.mp fun hlt => hmis (.inr (.inr (.inl hlt)))
  by_cases hsum : cs ≠ sum8 body
  · rw [if_pos hsum, if_pos hsum]
  rw [if_neg hsum, if_neg hsum, bodyFrame, hlen, hget 0 (by omega), hget 1 (by omega), hget 2 (by omega)]
  by_cases hctl : l1.toNat = 3
  · simp [hctl]
  · have hdrop : ((body ++ cs :: stop :: t).drop 3).take (l1.toNat - 3) = body.drop 3 := by
      rw [List.take_drop, Nat.add_sub_cancel' h3]
      simp [hbody]
    simp [hctl, hdrop]

end Sys2Proof
end

section
/-! PROOF. Wire images and what decodes to a frame (30_encoding.md R81 to R84; 40_rx_framer.md R132). -/

namespace Sys2Proof

open Machine

/-! ### Wire images as the bytes of a Control or Long frame -/

theorem toNat_lengthByte {p : List Byte} (h : p.length ≤ 252) : (lengthByte p).toNat = 3 + p.length := by
  simp only [lengthByte, BitVec.toNat_ofNat]
  omega

theorem wire_short (c a : Byte) : wire (.short c a) = [startShort, c, a, c + a] ++ [stopByte] := rfl

theorem sum8_header (c a ci : Byte) (p : List Byte) : sum8 (c :: a :: ci :: p) = c + a + ci + sum8 p := by
  simp [sum8, BitVec.add_assoc]

theorem wire_control (c a ci : Byte) :
    wire (.control c a ci) = longBytes 3 3 startLong [c, a, ci] (sum8 [c, a, ci]) stopByte := by
  simp [wire, longBytes, Frame.cs, sum8, BitVec.add_assoc]

theorem wire_long (c a ci : Byte) (p : List Byte) :
    wire (.long c a ci p) =
      longBytes (lengthByte p) (lengthByte p) startLong (c :: a :: ci :: p) (sum8 (c :: a :: ci :: p)) stopByte := by
  simp [wire, longBytes, Frame.cs, sum8, BitVec.add_assoc]

/-- A Long frame with no payload has the wire image of the Control frame of its bytes (30_encoding.md R84). -/
theorem wire_long_nil (c a ci : Byte) : wire (.long c a ci []) = wire (.control c a ci) := by
  rw [wire_long, wire_control]
  rfl

/-- Bytes whose every check holds decode to the frame of their body. -/
theorem longVerdict_good {l1 : Byte} {body : List Byte} (h : 3 ≤ l1.toNat) :
    longVerdict l1 l1 startLong body (sum8 body) stopByte = .ok (bodyFrame body) (l1.toNat + 6) := by
  have : ¬ l1.toNat < 3 := by omega
  simp [longVerdict, this]

/-- Round trip: the image of a frame, whatever follows it (40_rx_framer.md R132). -/
theorem decodeBuf_wire_append {f : Frame} (hf : f.valid = true) (t : List Byte) :
    decodeBuf (wire f ++ t) = .ok f (wire f).length := by
  cases f with
  | ack => exact decodeBuf_ack t
  | short c a =>
    have := decodeBuf_shortWhole c a (c + a) stopByte t
    simpa [wire_short, shortVerdict] using this
  | control c a ci => rw [wire_control, decodeBuf_longWhole _ _ _ _ t rfl, longVerdict_good (by decide)]; rfl
  | long c a ci p =>
    have hp : 1 ≤ p.length ∧ p.length ≤ 252 := of_decide_eq_true hf
    have hlen := toNat_lengthByte hp.2
    have hne : p ≠ [] := List.ne_nil_of_length_pos hp.1
    rw [wire_long, decodeBuf_longWhole _ _ _ _ t (by simp [hlen]; omega), longVerdict_good (by rw [hlen]; omega), hlen]
    simp [bodyFrame, hne, longBytes]
    omega

/-- A body of at least three bytes is that of its frame. -/
theorem wire_bodyFrame {l1 : Byte} {body : List Byte} (hlen : body.length = l1.toNat) (hmin : 3 ≤ l1.toNat) :
    wire (bodyFrame body) = longBytes l1 l1 startLong body (sum8 body) stopByte ∧ (bodyFrame body).valid = true := by
  match body with
  | [] | [_] | [_, _] => simp at hlen; omega
  | [c, a, ci] =>
    have hl1 : l1 = 3 := BitVec.eq_of_toNat_eq (by simpa using hlen.symm)
    exact ⟨by rw [hl1]; exact wire_control c a ci, rfl⟩
  | c :: a :: ci :: b :: p =>
    have hl1 : lengthByte (b :: p) = l1 :=
      BitVec.eq_of_toNat_eq (by have := l1.isLt; simp [lengthByte] at hlen ⊢; omega)
    have hframe : bodyFrame (c :: a :: ci :: b :: p) = .long c a ci (b :: p) := by simp [bodyFrame]
    refine ⟨by rw [hframe, ← hl1, wire_long], ?_⟩
    have hp : 1 ≤ (b :: p).length ∧ (b :: p).length ≤ 252 := by
      have := l1.isLt
      simp at hlen ⊢
      omega
    exact hframe ▸ decide_eq_true hp

/-- What decodes to a frame is its wire image and more, and the frame is one the round trip holds for. -/
theorem decodeBuf_eq_ok {buf : List Byte} {f : Frame} {n : Nat} (h : decodeBuf buf = .ok f n) :
    f.valid = true ∧ n = (wire f).length ∧ ∃ t, buf = wire f ++ t := by
  cases bufShape buf with
  | empty => simp [decodeBuf] at h
  | ack t =>
    obtain ⟨rfl, rfl⟩ : Frame.ack = f ∧ 1 = n := by simpa using h
    exact ⟨rfl, rfl, t, rfl⟩
  | noStart b t hack hshort hlong => simp [decodeBuf_noStart t hack hshort hlong] at h
  | shortPart bs hbs => simp [decodeBuf_shortPart hbs] at h
  | shortWhole c a cs stop t =>
    rw [decodeBuf_shortWhole, shortVerdict] at h
    split_ifs at h with hstop hcs
    obtain ⟨rfl, rfl⟩ : Frame.short c a = f ∧ 5 = n := by simpa using h
    obtain ⟨rfl, rfl⟩ : stop = stopByte ∧ cs = c + a := ⟨not_not.mp hstop, not_not.mp hcs⟩
    exact ⟨rfl, rfl, t, rfl⟩
  | longStart => simp [decodeBuf_longStart] at h
  | longPart l1 bs hbs => simp [decodeBuf_longPart hbs] at h
  | longWhole l1 l2 s2 body cs stop t hlen =>
    rw [decodeBuf_longWhole _ _ _ _ _ hlen, longVerdict] at h
    split_ifs at h with hmis hcs
    obtain ⟨rfl, rfl⟩ : bodyFrame body = f ∧ l1.toNat + 6 = n := by simpa using h
    simp only [not_or, not_not, not_lt] at hmis hcs
    obtain ⟨rfl, rfl, hmin, rfl⟩ := hmis
    obtain ⟨hwire, hvalid⟩ := wire_bodyFrame hlen hmin
    refine ⟨hvalid, ?_, t, ?_⟩
    · simp [hwire, longBytes, hlen]
    · rw [hwire, hcs]

end Sys2Proof
end

section
/-! PROOF. The decoder and the encoder, each the other's inverse (30_encoding.md R103; spec/opcode_table.json). -/

namespace Sys2Proof

/-! ### The rows of one byte -/

theorem rxClass_sound {pos : RxPos} {b : Byte} {i : Instr} (h : rxClass pos b = some i) :
    i.wf = true ∧ i.applies pos = true ∧ encode i = some (.channel, [b]) := by
  obtain ⟨st, cnt, l1⟩ := pos
  cases st <;> simp only [rxClass] at h <;> split_ifs at h
  all_goals
    obtain rfl := Option.some.inj h
    simp_all [Instr.wf, Instr.applies, encode]

theorem encode_difFunctionRow (b : Byte) : encode (difFunctionRow b) = some (.difFunction, [b]) := by
  revert b
  decide

theorem encode_difDataRow (b : Byte) : encode (difDataRow b) = some (.difData, [b]) := by
  revert b
  decide

theorem encode_vifCodeRow (b : Byte) : encode (vifCodeRow b) = some (.vifCode, [b]) := by
  revert b
  decide

/-- The four fields of a DIF or DIFE byte are all of it (30_encoding.md R91, R92). -/
theorem append_fields (b : Byte) :
    (b.extractLsb' 7 1 ++ b.extractLsb' 6 1 ++ b.extractLsb' 4 2 ++ b.extractLsb' 0 4 : BitVec 8) = b := by
  revert b
  decide

/-- The two fields of a VIF or VIFE byte are all of it (30_encoding.md R93, R94). -/
theorem append_code (b : Byte) : (b.extractLsb' 7 1 ++ b.extractLsb' 0 7 : BitVec 8) = b := by
  revert b
  decide

/-- The fields of the byte of four fields. -/
theorem fields_append (e s : BitVec 1) (f : BitVec 2) (d : BitVec 4) :
    (e ++ s ++ f ++ d : BitVec 8).extractLsb' 7 1 = e ∧ (e ++ s ++ f ++ d : BitVec 8).extractLsb' 6 1 = s
    ∧ (e ++ s ++ f ++ d : BitVec 8).extractLsb' 4 2 = f ∧ (e ++ s ++ f ++ d : BitVec 8).extractLsb' 0 4 = d := by
  revert e s f d
  decide

/-- The fields of the byte of two fields. -/
theorem code_append (e : BitVec 1) (c : BitVec 7) :
    (e ++ c : BitVec 8).extractLsb' 7 1 = e ∧ (e ++ c : BitVec 8).extractLsb' 0 7 = c := by
  revert e c
  decide

/-- A row presented at a position of a record has no condition on the receive position and no domain of its own, but for
the special DIF bytes. -/
theorem wf_and_applies_of_encode {i : Instr} {port : Port} {w : List Byte} (h : encode i = some (port, w))
    (hport : port ≠ .frame ∧ port ≠ .channel ∧ port ≠ .difSpecial) (pos : RxPos) :
    i.wf = true ∧ i.applies pos = true := by
  cases i
  case frameLong | rxHuntAck | rxHuntStartShort | rxHuntStartLong | rxHuntOther | rxShortBody | rxShortStop | rxLongBody
      | rxLongStop | difSpecialOther =>
    obtain ⟨rfl, -⟩ : _ = port ∧ _ = w := by simpa [encode] using h
    simp at hport
  case txStart | hostRead | recHeader | extract | recDecode | encode | send => cases h
  all_goals exact ⟨rfl, rfl⟩

/-! ### The rows of more than one byte -/

theorem difSpecialRow_sound {b : Byte} {bs rest : List Byte} {i : Instr} (h : difSpecialRow b bs = .ok (i, rest))
    (pos : RxPos) :
    i.wf = true ∧ i.applies pos = true ∧ ∃ w, encode i = some (.difSpecial, w) ∧ b :: bs = w ++ rest := by
  unfold difSpecialRow at h
  split_ifs at h with htail hmore hfiller hother
  all_goals
    cases h
    simp_all [Instr.wf, Instr.applies, encode]

theorem toInstr_sound {f : Frame} (hf : f.valid = true) (pos : RxPos) :
    f.toInstr.wf = true ∧ f.toInstr.applies pos = true ∧ encode f.toInstr = some (.frame, wire f) := by
  cases f with
  | long c a ci p => exact ⟨hf, rfl, rfl⟩
  | ack | short | control => exact ⟨rfl, rfl, rfl⟩

theorem decodeFrame_eq_ok {bytes rest : List Byte} {i : Instr} (h : decodeFrame bytes = .ok (i, rest)) :
    ∃ f n, decodeBuf bytes = .ok f n ∧ i = f.toInstr ∧ rest = bytes.drop n := by
  unfold decodeFrame at h
  split at h
  next f n hbuf =>
    cases h
    exact ⟨f, n, hbuf, rfl, rfl⟩
  all_goals cases h

theorem decodeFrame_sound {bytes rest : List Byte} {i : Instr} (h : decodeFrame bytes = .ok (i, rest)) (pos : RxPos) :
    i.wf = true ∧ i.applies pos = true ∧ ∃ w, encode i = some (.frame, w) ∧ bytes = w ++ rest := by
  obtain ⟨f, n, hbuf, rfl, rfl⟩ := decodeFrame_eq_ok h
  obtain ⟨hvalid, rfl, t, rfl⟩ := decodeBuf_eq_ok hbuf
  obtain ⟨hwf, happlies, hencode⟩ := toInstr_sound hvalid pos
  exact ⟨hwf, happlies, wire f, hencode, by simp⟩

theorem decodeFrame_wire {f : Frame} (hf : f.valid = true) (rest : List Byte) :
    decodeFrame (wire f ++ rest) = .ok (f.toInstr, rest) := by
  simp [decodeFrame, decodeBuf_wire_append hf]

end Sys2Proof

section

open Sys2Proof Sys2Proof.Machine

/-- Settles O3: a case for each port. -/
theorem whatTheDecoderReadsReencodes : Obligations.WhatTheDecoderReadsReencodes := by
  unfold Obligations.WhatTheDecoderReadsReencodes
  intro pos port bytes rest i h
  have oneByte {b : Byte} {bs : List Byte} {j : Instr} (hij : .ok (j, bs) = (.ok (i, rest) : Except DecodeError _))
      (hj : j.wf = true ∧ j.applies pos = true) (hencode : encode j = some (port, [b])) :
      i.wf = true ∧ i.applies pos = true ∧ ∃ w, encode i = some (port, w) ∧ b :: bs = w ++ rest := by
    cases hij
    exact ⟨hj.1, hj.2, [b], hencode, rfl⟩
  by_cases hframe : port = .frame
  · subst hframe
    exact decodeFrame_sound h pos
  cases bytes with
  | nil => cases port <;> cases h
  | cons b bs =>
    cases port
    case frame => exact absurd rfl hframe
    case channel =>
      simp only [decode] at h
      split at h
      next j hclass =>
        obtain ⟨hwf, happlies, hencode⟩ := rxClass_sound hclass
        exact oneByte h ⟨hwf, happlies⟩ hencode
      next => cases h
    case dif => exact oneByte h ⟨rfl, rfl⟩ (by simp only [encode, append_fields])
    case dife => exact oneByte h ⟨rfl, rfl⟩ (by simp only [encode, append_fields])
    case vif => exact oneByte h ⟨rfl, rfl⟩ (by simp only [encode, append_code])
    case vife => exact oneByte h ⟨rfl, rfl⟩ (by simp only [encode, append_code])
    case lvar => exact oneByte h ⟨rfl, rfl⟩ rfl
    case difFunction =>
      exact oneByte h (wf_and_applies_of_encode (encode_difFunctionRow b) (by decide) pos) (encode_difFunctionRow b)
    case difData => exact oneByte h (wf_and_applies_of_encode (encode_difDataRow b) (by decide) pos) (encode_difDataRow b)
    case vifCode => exact oneByte h (wf_and_applies_of_encode (encode_vifCodeRow b) (by decide) pos) (encode_vifCodeRow b)
    case difSpecial => exact difSpecialRow_sound h pos

end
end

section
/-! PROOF. The decoder gives back what the encoder encodes (30_encoding.md R103). -/

namespace Sys2Proof

/-! ### Each row is the one its port finds for its byte -/

section

variable {i : Instr} {b : Byte}

theorem rxClass_of_encode {pos : RxPos} (hwf : i.wf = true) (happlies : i.applies pos = true)
    (h : encode i = some (.channel, [b])) : rxClass pos b = some i := by
  cases i <;> simp [encode] at h
  all_goals
    subst h
    simp [Instr.wf, Instr.applies] at hwf happlies
    simp [rxClass, *]
  all_goals decide

theorem difFunctionRow_of_encode (h : encode i = some (.difFunction, [b])) : difFunctionRow b = i := by
  cases i <;> simp [encode] at h
  all_goals subst h
  case difFuncInstantaneous e s d | difFuncMaximum e s d | difFuncMinimum e s d | difFuncError e s d =>
    revert e s d
    decide

theorem difDataRow_of_encode (h : encode i = some (.difData, [b])) : difDataRow b = i := by
  cases i <;> simp [encode] at h
  all_goals subst h
  case difData0NoData e s f | difData1Int1 e s f | difData2Int2 e s f | difData3Int3 e s f | difData4Int4 e s f
      | difData5Real32 e s f | difData6Int6 e s f | difData7Int8 e s f | difData8Selection e s f | difData9Bcd2 e s f
      | difDataABcd4 e s f | difDataBBcd6 e s f | difDataCBcd8 e s f | difDataDVarLen e s f | difDataEBcd12 e s f
      | difDataFSpecial e s f =>
    revert e s f
    decide

theorem vifCodeRow_of_encode (h : encode i = some (.vifCode, [b])) : vifCodeRow b = i := by
  cases i <;> simp [encode] at h
  all_goals subst h
  case vif00Energy e n | vif08Energy e n | vif10Volume e n | vif18Mass e n | vif28Power e n | vif30Power e n
      | vif38VolumeFlow e n | vif40VolumeFlow e n | vif48VolumeFlow e n | vif50MassFlow e n =>
    revert e n
    decide
  case vif20OnTime e n | vif24OperatingTime e n | vif58FlowTemperature e n | vif5CReturnTemperature e n
      | vif60TemperatureDifference e n | vif64ExternalTemperature e n | vif68Pressure e n | vif70AveragingDuration e n
      | vif74ActualityDuration e n =>
    revert e n
    decide
  case vif6CTimePoint e | vif6DTimePoint e | vif6EHcaUnits e | vif6FReserved e | vif78FabricationNo e
      | vif79EnhancedId e | vif7ABusAddress e | vif7BExtTableFB e | vif7CPlainText e | vif7DExtTableFD e
      | vif7EAnyVif e | vif7FMfrSpecific e =>
    revert e
    decide

end

/-! ### The fields and the forms of more than one byte -/

section

variable {i : Instr} (pos : RxPos) (rest : List Byte)

theorem decode_of_encode_dif {b : Byte} (h : encode i = some (.dif, [b])) :
    decode pos .dif (b :: rest) = .ok (i, rest) := by
  cases i <;> simp [encode] at h
  case dif e s f d =>
    obtain ⟨he, hs, hf, hd⟩ := fields_append e s f d
    simp only [decode, ← h, he, hs, hf, hd]

theorem decode_of_encode_dife {b : Byte} (h : encode i = some (.dife, [b])) :
    decode pos .dife (b :: rest) = .ok (i, rest) := by
  cases i <;> simp [encode] at h
  case dife e u t s =>
    obtain ⟨he, hu, ht, hs⟩ := fields_append e u t s
    simp only [decode, ← h, he, hu, ht, hs]

theorem decode_of_encode_vif {b : Byte} (h : encode i = some (.vif, [b])) :
    decode pos .vif (b :: rest) = .ok (i, rest) := by
  cases i <;> simp [encode] at h
  case vif e c =>
    obtain ⟨he, hc⟩ := code_append e c
    simp only [decode, ← h, he, hc]

theorem decode_of_encode_vife {b : Byte} (h : encode i = some (.vife, [b])) :
    decode pos .vife (b :: rest) = .ok (i, rest) := by
  cases i <;> simp [encode] at h
  case vife e c =>
    obtain ⟨he, hc⟩ := code_append e c
    simp only [decode, ← h, he, hc]

theorem decode_of_encode_lvar {b : Byte} (h : encode i = some (.lvar, [b])) :
    decode pos .lvar (b :: rest) = .ok (i, rest) := by
  cases i <;> simp [encode] at h
  case lvar v => simp only [decode, h]

theorem decode_of_encode_difSpecial {w : List Byte} (hwf : i.wf = true) (h : encode i = some (.difSpecial, w))
    (hrest : rest = [] ∨ ∀ tail, i ≠ .difMfrTail tail ∧ i ≠ .difMfrTailMore tail) :
    decode pos .difSpecial (w ++ rest) = .ok (i, rest) := by
  cases i <;> simp [encode] at h
  all_goals subst h
  case difMfrTail tail =>
    obtain rfl : rest = [] := hrest.resolve_right fun hne => (hne tail).1 rfl
    simp [decode, difSpecialRow]
  case difMfrTailMore tail =>
    obtain rfl : rest = [] := hrest.resolve_right fun hne => (hne tail).2 rfl
    simp [decode, difSpecialRow]
  case difFiller => rfl
  case difSpecialOther b =>
    obtain ⟨hcode, htail, hmore, hfiller⟩ := of_decide_eq_true hwf
    simp [decode, difSpecialRow, hcode, htail, hmore, hfiller]

end

theorem exists_frame_of_encode {i : Instr} {w : List Byte} (hwf : i.wf = true) (h : encode i = some (.frame, w)) :
    ∃ f : Frame, f.valid = true ∧ i = f.toInstr ∧ w = wire f := by
  cases i <;> simp [encode] at h
  case frameAck => exact ⟨.ack, rfl, rfl, h.symm⟩
  case frameShort c a => exact ⟨.short c a, rfl, rfl, h.symm⟩
  case frameControl c a ci => exact ⟨.control c a ci, rfl, rfl, h.symm⟩
  case frameLong c a ci p => exact ⟨.long c a ci p, hwf, rfl, h.symm⟩

/-- Every other encoding is one byte (30_encoding.md R103). -/
theorem exists_byte_of_encode {i : Instr} {port : Port} {w : List Byte} (h : encode i = some (port, w))
    (hframe : port ≠ .frame) (hspecial : port ≠ .difSpecial) : ∃ b, w = [b] := by
  cases i <;> simp [encode] at h
  case frameAck | frameShort | frameControl | frameLong => exact absurd h.1.symm hframe
  case difMfrTail | difMfrTailMore | difFiller | difSpecialOther => exact absurd h.1.symm hspecial
  all_goals exact ⟨_, h.2.symm⟩

end Sys2Proof

section

open Sys2Proof Sys2Proof.Machine

/-- Settles O2: a case for each port. -/
theorem decodingAnEncodingGivesTheInstructionBack : Obligations.DecodingAnEncodingGivesTheInstructionBack := by
  unfold Obligations.DecodingAnEncodingGivesTheInstructionBack
  intro i pos port w rest hwf happlies hencode hrest
  by_cases hframe : port = .frame
  · subst hframe
    obtain ⟨f, hvalid, rfl, rfl⟩ := exists_frame_of_encode hwf hencode
    exact decodeFrame_wire hvalid rest
  by_cases hspecial : port = .difSpecial
  · subst hspecial
    exact decode_of_encode_difSpecial pos rest hwf hencode hrest
  obtain ⟨b, rfl⟩ := exists_byte_of_encode hencode hframe hspecial
  cases port
  case frame => exact absurd rfl hframe
  case difSpecial => exact absurd rfl hspecial
  case channel => simp [decode, rxClass_of_encode hwf happlies hencode]
  case dif => exact decode_of_encode_dif pos rest hencode
  case dife => exact decode_of_encode_dife pos rest hencode
  case vif => exact decode_of_encode_vif pos rest hencode
  case vife => exact decode_of_encode_vife pos rest hencode
  case lvar => exact decode_of_encode_lvar pos rest hencode
  case difFunction => simp [decode, difFunctionRow_of_encode hencode]
  case difData => simp [decode, difDataRow_of_encode hencode]
  case vifCode => simp [decode, vifCodeRow_of_encode hencode]

/-- Settles O1: each word is decoded. -/
theorem writtenOutWordsDecode : Obligations.WrittenOutWordsDecode := by
  unfold Obligations.WrittenOutWordsDecode
  and_intros <;> rfl

end
end

section
/-! PROOF. Receiving the bytes of a frame: the bytes before the stop position are taken without a verdict, and the stop byte
gives the verdict of the closed form (40_rx_framer.md R110 to R118, R130, R131). -/

namespace Sys2Proof.Machine

/-! ### Bytes taken without a verdict -/

/-- The receive path takes these bytes without a verdict and goes from one state to another. -/
inductive Accepts (res : Res) : List Byte → Rx → Rx → Prop where
  | nil {rx : Rx} : Accepts res [] rx rx
  | cons {b : Byte} {bs : List Byte} {rx mid rx' : Rx} :
      rxStep b rx res = some { rx := mid, res := res, event := none } → Accepts res bs mid rx' →
      Accepts res (b :: bs) rx rx'

section

variable {res : Res} {rx mid rx' : Rx} {bs cs : List Byte}

theorem Accepts.append (h : Accepts res bs rx mid) (h' : Accepts res cs mid rx') : Accepts res (bs ++ cs) rx rx' := by
  induction h with
  | nil => exact h'
  | cons hstep _ ih => exact .cons hstep (ih h')

theorem Accepts.single {b : Byte} (h : rxStep b rx res = some { rx := rx', res := res, event := none }) :
    Accepts res [b] rx rx' :=
  .cons h .nil

/-- What is decoded after bytes taken without a verdict. -/
theorem Accepts.decodeFrom_append (h : Accepts res bs rx rx') (t : List Byte) :
    decodeFrom rx res (bs ++ t) = decodeFrom rx' res t := by
  induction h with
  | nil => rfl
  | cons hstep _ ih => simp only [List.cons_append, decodeFrom, hstep, ih]

/-- Feeding bytes taken without a verdict writes the receive path only. -/
theorem Accepts.receiveAll {s : State} (h : Accepts s.res bs s.rx rx') : receiveAll bs s = .next { s with rx := rx' } := by
  induction bs generalizing s with
  | nil =>
    cases h
    rfl
  | cons b bs ih =>
    obtain _ | ⟨hstep, hrest⟩ := h
    rename_i mid
    have hb : receive b s = .next { s with rx := mid } :=
      (receive_of_rxStep hstep).trans (congrArg _ (applyRx_silent s mid))
    simp only [Machine.receiveAll, hb]
    exact ih (s := { s with rx := mid }) hrest

/-- Bytes taken without a verdict keep the canonical form of `rx_body`. -/
theorem Accepts.body_wf (h : Accepts res bs rx rx') (hw : rx.body.wf) : rx'.body.wf := by
  induction h with
  | nil => exact hw
  | cons hstep _ ih => exact ih (rxStep_body_wf hw hstep)

end

/-! ### The bytes of a Short frame before its stop byte -/

section

variable {rx : Rx} (res : Res)

theorem rxStep_startShort (hst : rx.state = .hunt) :
    rxStep startShort rx res = some (rxStart .short rx res) := by
  rw [rxStep_of_hunt _ _ hst]
  simp [rxHunt, startShort, ackByte]

theorem rxStep_startLong (hst : rx.state = .hunt) :
    rxStep startLong rx res = some (rxStart .long rx res) := by
  rw [rxStep_of_hunt _ _ hst]
  simp [rxHunt, startLong, startShort, ackByte]

/-- The receive path at the stop position of a Short frame (40_rx_framer.md R114). -/
def atShortStop (c a cs : Byte) (rx : Rx) : Rx :=
  { rx with state := .short, cnt := 4, sum := c + a, cs := cs, body := (rx.body.write 0 c).write 1 a }

theorem accepts_short (hst : rx.state = .hunt) (c a cs : Byte) :
    Accepts res [startShort, c, a, cs] rx (atShortStop c a cs rx) := by
  refine .cons (rxStep_startShort res hst) (.cons (rxStep_of_shortBody c res rfl (by simp) (by simp)) ?_)
  refine .cons (rxStep_of_shortBody a res rfl (by simp) (by simp)) (.single ?_)
  refine (rxStep_of_shortBody cs res rfl (by simp) (by simp)).trans ?_
  simp [rxShortBody, atShortStop]

/-! ### The bytes of a Control or Long frame before its stop byte -/

/-- The bytes of a body are summed and stored one after another (40_rx_framer.md R116). -/
theorem accepts_body (bs : List Byte) (hst : rx.state = .long) {k : Nat} (hcnt : rx.cnt = k + 4)
    (hlen : k + bs.length ≤ rx.l1.toNat) :
    Accepts res bs rx
      { rx with cnt := rx.cnt + bs.length, sum := rx.sum + sum8 bs, body := rx.body.writeRange k bs } := by
  induction bs generalizing rx k with
  | nil => simpa [sum8, Memory.writeRange] using Accepts.nil
  | cons b bs ih =>
    simp only [List.length_cons] at hlen
    have hstep : rxStep b rx res = some
        { rx := { rx with cnt := rx.cnt + 1, sum := rx.sum + b, body := rx.body.write k b }, res := res, event := none } := by
      have hbody : rx.cnt ≤ rx.l1.toNat + 3 := by omega
      rw [rxStep_of_longBody b res hst (by omega)]
      simp [rxLongBody, hcnt, show k + 4 ≤ rx.l1.toNat + 3 by omega]
    have := ih (rx := { rx with cnt := rx.cnt + 1, sum := rx.sum + b, body := rx.body.write k b }) hst (k := k + 1)
      (by simp only; omega) (by simp only; omega)
    refine .cons hstep ?_
    simpa [sum8, Memory.writeRange, BitVec.add_assoc, Nat.add_assoc, Nat.add_comm 1] using this

/-- The checksum is stored and not summed (40_rx_framer.md R116). -/
theorem accepts_cs (cs : Byte) (hst : rx.state = .long) (hcnt : rx.cnt = rx.l1.toNat + 4) :
    Accepts res [cs] rx { rx with cs := cs, cnt := rx.l1.toNat + 5 } := by
  refine .single ((rxStep_of_longBody cs res hst (by omega)).trans ?_)
  simp [rxLongBody, hcnt]

/-- The receive path at the stop position of a Control or Long frame (40_rx_framer.md R116). -/
def atLongStop (l1 l2 s2 : Byte) (body : List Byte) (cs : Byte) (rx : Rx) : Rx :=
  { state := .long, cnt := l1.toNat + 5, l1 := l1, l2 := l2, s2 := s2, sum := sum8 body, cs := cs,
    body := rx.body.writeRange 0 body }

theorem accepts_long (hst : rx.state = .hunt) {l1 : Byte} {body : List Byte} (hlen : body.length = l1.toNat)
    (l2 s2 cs : Byte) :
    Accepts res (startLong :: l1 :: l2 :: s2 :: (body ++ [cs])) rx (atLongStop l1 l2 s2 body cs rx) := by
  refine .cons (rxStep_startLong res hst) (.cons (rxStep_of_longBody l1 res rfl (by simp)) ?_)
  refine .cons (rxStep_of_longBody l2 res rfl (by simp)) (.cons (rxStep_of_longBody s2 res rfl (by simp)) ?_)
  refine .append (accepts_body res body rfl (k := 0) (by simp) (by simp [hlen])) ?_
  have hcs := accepts_cs res (rx := { atLongStop l1 l2 s2 body rx.cs rx with cnt := l1.toNat + 4 }) cs rfl rfl
  simpa [rxLongBody, rxStart, atLongStop, hlen, Nat.add_comm] using hcs

end

end Sys2Proof.Machine
end

section
/-! PROOF. An attempt on the receive path and the closed form of `decode(buf)`: a finished one ends in the verdict the closed form
gives, an unfinished one takes the whole buffer without a verdict (40_rx_framer.md R130, R131, R133). -/

namespace Sys2Proof.Machine

/-! ### The verdict at the stop byte -/

/-- The receive step that ends an attempt with this result; `b` is the first byte of the attempt (60_exceptions.md R280,
R281). -/
def verdictOut (b : Byte) (r : DecodeResult) (rx : Rx) (res : Res) : RxOut :=
  match r with
  | .ok f n => completeFrame f n rx res
  | .err k n => raiseError k n b rx res
  | .incomplete => { rx := rx, res := res, event := none }

theorem verdictOut_event (b : Byte) (t : List Byte) (r : DecodeResult) (rx : Rx) (res : Res) :
    (verdictOut b r rx res).event = eventOf (b :: t) r := by
  cases r with
  | ok f n => rfl
  | err k n => cases k <;> rfl
  | incomplete => rfl

/-- A verdict leaves the path hunting. -/
theorem verdictOut_rx (b : Byte) {r : DecodeResult} (hr : r ≠ .incomplete) (rx : Rx) (res : Res) :
    (verdictOut b r rx res).rx = { rx with state := .hunt, cnt := 0 } := by
  cases r with
  | ok f n => rfl
  | err k n => rfl
  | incomplete => exact absurd rfl hr

/-- The offending byte is recorded by a `FramingError` only (60_exceptions.md R280). -/
theorem raiseError_byte {k : RxError} (hk : k ≠ .framingError) (n : Nat) (v w : Byte) (rx : Rx) (res : Res) :
    raiseError k n v rx res = raiseError k n w rx res := by
  simp [raiseError, hk]

theorem rxShortStop_atShortStop {rx : Rx} (hw : rx.body.wf) (c a cs stop b : Byte) (res : Res) :
    rxShortStop stop (atShortStop c a cs rx) res =
      verdictOut b (shortVerdict c a cs stop) (atShortStop c a cs rx) res := by
  have hc : (atShortStop c a cs rx).body.read 0 = c := by simp [atShortStop, Memory.read_write_same _ _ _ hw]
  have ha : (atShortStop c a cs rx).body.read 1 = a := Memory.read_write_same _ _ _ (Memory.wf_write _ _ hw)
  have hsum : (atShortStop c a cs rx).cs = cs ∧ (atShortStop c a cs rx).sum = c + a := ⟨rfl, rfl⟩
  simp only [rxShortStop, shortVerdict, hc, ha, hsum]
  split_ifs
  · exact raiseError_byte (by simp) ..
  · exact raiseError_byte (by simp) ..
  · rfl

/-- What is left of a range read after its first elements. -/
theorem drop_readRange (m : Memory) (n k : Nat) : ∀ a, (m.readRange a n).drop k = m.readRange (a + k) (n - k) := by
  induction n generalizing k with
  | zero => intro a; simp [Memory.readRange]
  | succ n ih =>
    intro a
    cases k with
    | zero => rfl
    | succ k => simp [Memory.readRange, ih, Nat.add_assoc, Nat.add_comm 1]

/-- A stored body reads back element by element. -/
theorem read_writeRange_zero {m : Memory} (hw : m.wf) {body : List Byte} {k : Nat} (hk : k < body.length) :
    (m.writeRange 0 body).read k = body.getD k 0 := by
  rw [Memory.read_writeRange _ _ _ hw, if_pos (by omega), Nat.sub_zero]

/-- A stored body reads back as the payload after its three header bytes. -/
theorem readRange_writeRange_three {m : Memory} (hw : m.wf) (body : List Byte) :
    (m.writeRange 0 body).readRange 3 (body.length - 3) = body.drop 3 := by
  rw [← Nat.zero_add 3, ← drop_readRange, Memory.readRange_writeRange _ hw]

theorem rxLongStop_atLongStop {rx : Rx} (hw : rx.body.wf) {l1 : Byte} {body : List Byte} (hlen : body.length = l1.toNat)
    (l2 s2 cs stop b : Byte) (res : Res) :
    rxLongStop stop (atLongStop l1 l2 s2 body cs rx) res =
      verdictOut b (longVerdict l1 l2 s2 body cs stop) (atLongStop l1 l2 s2 body cs rx) res := by
  obtain ⟨hl1, hl2, hs2, hsum, hcs, hbody⟩ : (atLongStop l1 l2 s2 body cs rx).l1 = l1
      ∧ (atLongStop l1 l2 s2 body cs rx).l2 = l2 ∧ (atLongStop l1 l2 s2 body cs rx).s2 = s2
      ∧ (atLongStop l1 l2 s2 body cs rx).sum = sum8 body ∧ (atLongStop l1 l2 s2 body cs rx).cs = cs
      ∧ (atLongStop l1 l2 s2 body cs rx).body = rx.body.writeRange 0 body := ⟨rfl, rfl, rfl, rfl, rfl, rfl⟩
  simp only [rxLongStop, longVerdict, hl1, hl2, hs2, hsum, hcs, hbody, ite_or]
  split_ifs with h2 hs hmin hstop hsumNe hctl
  any_goals exact raiseError_byte (by simp) ..
  all_goals
    have h3 : 3 ≤ body.length := hlen ▸ not_lt.mp hmin
    rw [read_writeRange_zero hw (show 0 < body.length by omega), read_writeRange_zero hw (show 1 < body.length by omega),
      read_writeRange_zero hw (show 2 < body.length by omega)]
  · simp [verdictOut, bodyFrame, hlen, hctl]
  · rw [← hlen, readRange_writeRange_three hw]
    simp [verdictOut, bodyFrame, hlen, hctl]

/-! ### The place after a byte before the stop position -/

section

variable (b : Byte) (rx : Rx) (res : Res)

@[simp] theorem rxShortBody_state : (rxShortBody b rx res).rx.state = rx.state := by
  simp only [rxShortBody]
  split_ifs <;> rfl

@[simp] theorem rxShortBody_cnt : (rxShortBody b rx res).rx.cnt = rx.cnt + 1 := rfl

@[simp] theorem rxLongBody_state : (rxLongBody b rx res).rx.state = rx.state := by
  simp only [rxLongBody]
  split_ifs <;> rfl

@[simp] theorem rxLongBody_cnt : (rxLongBody b rx res).rx.cnt = rx.cnt + 1 := rfl

/-- The first byte after the start is the length (40_rx_framer.md R116). -/
@[simp] theorem rxLongBody_l1 : (rxLongBody b rx res).rx.l1 = if rx.cnt = 1 then b else rx.l1 := by
  simp only [rxLongBody]
  split_ifs <;> rfl

end

/-! ### Bytes short of the declared length -/

theorem accepts_part_of_short {rx : Rx} (res : Res) (bs : List Byte) (hst : rx.state = .short) (h1 : 1 ≤ rx.cnt)
    (hlen : rx.cnt + bs.length ≤ 4) :
    ∃ rx', Accepts res bs rx rx' ∧ rx'.state = .short ∧ rx'.cnt = rx.cnt + bs.length := by
  induction bs generalizing rx with
  | nil => exact ⟨rx, .nil, hst, rfl⟩
  | cons b bs ih =>
    simp only [List.length_cons] at hlen
    have hstep := rxStep_of_shortBody b res hst h1 (by omega)
    obtain ⟨rx', hacc, hst', hcnt'⟩ :=
      ih (rx := (rxShortBody b rx res).rx) (by simpa using hst) (by simp) (by simp; omega)
    exact ⟨rx', .cons hstep hacc, hst', hcnt'.trans (by simp; omega)⟩

theorem accepts_part_of_long {rx : Rx} (res : Res) (bs : List Byte) (hst : rx.state = .long) (h2 : 2 ≤ rx.cnt)
    (hlen : rx.cnt + bs.length ≤ rx.l1.toNat + 5) :
    ∃ rx', Accepts res bs rx rx' ∧ rx'.state = .long ∧ rx'.cnt = rx.cnt + bs.length := by
  induction bs generalizing rx with
  | nil => exact ⟨rx, .nil, hst, rfl⟩
  | cons b bs ih =>
    simp only [List.length_cons] at hlen
    have h1 : rx.cnt ≠ 1 := by omega
    have hstep := rxStep_of_longBody b res hst (.inr ⟨h2, by omega⟩)
    obtain ⟨rx', hacc, hst', hcnt'⟩ :=
      ih (rx := (rxLongBody b rx res).rx) (by simpa using hst) (by simp; omega) (by simp [h1]; omega)
    exact ⟨rx', .cons hstep hacc, hst', hcnt'.trans (by simp; omega)⟩

/-! ### An attempt -/

/-- Where an attempt stands that has taken these bytes and is not finished. -/
def openState : List Byte → RxState
  | [] => .hunt
  | b :: _ => if b = startShort then .short else .long

variable {rx : Rx} (res : Res)

/-- An attempt whose buffer is too short takes all of it without a verdict. -/
theorem accepts_of_incomplete (hst : rx.state = .hunt) (hcnt : rx.cnt = 0) {buf : List Byte}
    (h : decodeBuf buf = .incomplete) :
    ∃ rx', Accepts res buf rx rx' ∧ rx'.state = openState buf ∧ rx'.cnt = buf.length := by
  cases bufShape buf with
  | empty => exact ⟨rx, .nil, hst, hcnt⟩
  | ack t => simp at h
  | noStart b t hack hshort hlong => simp [decodeBuf_noStart t hack hshort hlong] at h
  | shortPart bs hbs =>
    obtain ⟨rx', hacc, hst', hcnt'⟩ :=
      accepts_part_of_short res bs (rx := (rxStart .short rx res).rx) rfl (by simp [rxStart]) (by simp only [rxStart]; omega)
    exact ⟨rx', .cons (rxStep_startShort res hst) hacc, hst', hcnt'.trans (Nat.add_comm _ _)⟩
  | shortWhole c a cs stop t =>
    rw [decodeBuf_shortWhole, shortVerdict] at h
    split_ifs at h
  | longStart => exact ⟨_, .single (rxStep_startLong res hst), rfl, rfl⟩
  | longPart l1 bs hbs =>
    have hl1 := rxStep_of_longBody (rx := (rxStart .long rx res).rx) l1 res rfl (.inl rfl)
    obtain ⟨rx', hacc, hst', hcnt'⟩ :=
      accepts_part_of_long res bs (rx := (rxLongBody l1 (rxStart .long rx res).rx res).rx) rfl (by simp [rxStart])
        (by simp [rxStart]; omega)
    exact ⟨rx', .cons (rxStep_startLong res hst) (.cons hl1 hacc), hst',
      hcnt'.trans (by simp [rxStart]; omega)⟩
  | longWhole l1 l2 s2 body cs stop t hlen =>
    rw [decodeBuf_longWhole _ _ _ _ _ hlen, longVerdict] at h
    split_ifs at h

/-- A finished attempt takes its bytes without a verdict up to the last, and that one gives the closed form's verdict. -/
theorem verdict_of_ne_incomplete (hst : rx.state = .hunt) (hw : rx.body.wf) {buf : List Byte}
    (h : decodeBuf buf ≠ .incomplete) :
    ∃ bs b t mid, buf = bs ++ b :: t ∧ consumedOf (decodeBuf buf) = bs.length + 1 ∧ Accepts res bs rx mid
      ∧ rxStep b mid res = some (verdictOut (buf.headD 0) (decodeBuf buf) mid res) := by
  cases bufShape buf with
  | empty => exact absurd rfl h
  | ack t =>
    refine ⟨[], ackByte, t, rx, rfl, by simp [consumedOf], .nil, ?_⟩
    simp [rxStep_of_hunt _ _ hst, rxHunt, verdictOut]
  | noStart b t hack hshort hlong =>
    refine ⟨[], b, t, rx, rfl, by simp [decodeBuf_noStart t hack hshort hlong, consumedOf], .nil, ?_⟩
    simp [rxStep_of_hunt _ _ hst, rxHunt, decodeBuf_noStart t hack hshort hlong, hack, hshort, hlong, verdictOut]
  | shortPart bs hbs => exact absurd (decodeBuf_shortPart hbs) h
  | shortWhole c a cs stop t =>
    refine ⟨_, stop, t, _, rfl, ?_, accepts_short res hst c a cs, ?_⟩
    · rw [decodeBuf_shortWhole, shortVerdict]
      split_ifs <;> rfl
    · rw [decodeBuf_shortWhole, rxStep_of_shortStop _ _ rfl rfl]
      exact congrArg _ (rxShortStop_atShortStop hw ..)
  | longStart => exact absurd decodeBuf_longStart h
  | longPart l1 bs hbs => exact absurd (decodeBuf_longPart hbs) h
  | longWhole l1 l2 s2 body cs stop t hlen =>
    refine ⟨_, stop, t, _, by simp [longBytes], ?_, accepts_long res hst hlen l2 s2 cs, ?_⟩
    · rw [decodeBuf_longWhole _ _ _ _ _ hlen, longVerdict]
      split_ifs <;> simp [consumedOf, hlen]
    · rw [decodeBuf_longWhole _ _ _ _ _ hlen, rxStep_of_longStop _ _ rfl rfl]
      exact congrArg _ (rxLongStop_atLongStop hw hlen ..)

end Sys2Proof.Machine
end

section
/-! PROOF. `decode(buf)` and what the spec derives of it: its closed form, the round trip, the incomplete buffer, checksum
detection and stability under more bytes (40_rx_framer.md R131 to R135). -/

namespace Sys2Proof.Machine

/-! ### The closed form -/

theorem decodeFrom_of_verdict {b c : Byte} {rx : Rx} {res : Res} {r : DecodeResult} (hr : r ≠ .incomplete)
    (h : rxStep b rx res = some (verdictOut c r rx res)) (t : List Byte) : decodeFrom rx res (b :: t) = r := by
  simp only [decodeFrom, h]
  cases r with
  | ok f n => rfl
  | err k n => rfl
  | incomplete => exact absurd rfl hr

/-- From any hunting path the state machine gives the closed form (40_rx_framer.md R131). -/
theorem decodeFrom_eq_decodeBuf {rx : Rx} (res : Res) (hst : rx.state = .hunt) (hcnt : rx.cnt = 0) (hw : rx.body.wf)
    (buf : List Byte) : decodeFrom rx res buf = decodeBuf buf := by
  by_cases hr : decodeBuf buf = .incomplete
  · obtain ⟨rx', hacc, -⟩ := accepts_of_incomplete res hst hcnt hr
    have := hacc.decodeFrom_append []
    rw [List.append_nil] at this
    exact this.trans hr.symm
  · obtain ⟨bs, b, t, mid, hbuf, -, hacc, hstep⟩ := verdict_of_ne_incomplete res hst hw hr
    calc decodeFrom rx res buf = decodeFrom rx res (bs ++ b :: t) := by rw [← hbuf]
      _ = decodeFrom mid res (b :: t) := hacc.decodeFrom_append _
      _ = decodeBuf buf := decodeFrom_of_verdict hr hstep t

theorem handsBack_decode (buf : List Byte) (s : State) : HandsBack (.decode buf) s (.decoded (decodeBuf buf)) := by
  rw [← decodeFrom_eq_decodeBuf (rx := Rx.reset) Res.reset rfl rfl ⟨.nil, by simp [Rx.reset]⟩]
  rfl

theorem handsBack_decode_iff {buf : List Byte} {s : State} {r : DecodeResult} :
    HandsBack (.decode buf) s (.decoded r) ↔ decodeBuf buf = r := by
  have hself := handsBack_decode buf s
  constructor
  · intro h
    have := hself.symm.trans h
    simpa using this
  · rintro rfl
    exact hself

/-! ### Prefixes -/

theorem decodeFrom_append {rx : Rx} {res : Res} {buf : List Byte} (t : List Byte) (h : decodeFrom rx res buf ≠ .incomplete) :
    decodeFrom rx res (buf ++ t) = decodeFrom rx res buf := by
  induction buf generalizing rx res with
  | nil => exact absurd rfl h
  | cons b bs ih =>
    simp only [List.cons_append, decodeFrom] at h ⊢
    split
    · rfl
    · split
      · rfl
      · rfl
      · simp_all

/-- Bytes after a finished attempt do not change its result (40_rx_framer.md R135). -/
theorem decodeBuf_append {buf : List Byte} (t : List Byte) (h : decodeBuf buf ≠ .incomplete) :
    decodeBuf (buf ++ t) = decodeBuf buf := by
  have heq := decodeFrom_eq_decodeBuf (rx := Rx.reset) Res.reset rfl rfl ⟨.nil, by simp [Rx.reset]⟩
  rw [← heq] at h ⊢
  rw [← heq, decodeFrom_append t h]

/-- A finished attempt does not consume more than there is. -/
theorem consumedOf_decodeBuf_le {buf : List Byte} (h : decodeBuf buf ≠ .incomplete) :
    consumedOf (decodeBuf buf) ≤ buf.length := by
  obtain ⟨bs, b, t, -, hbuf, hn, -⟩ := verdict_of_ne_incomplete (rx := Rx.reset) Res.reset rfl ⟨.nil, by simp [Rx.reset]⟩ h
  rw [hn, hbuf]
  simp

/-- A wire image cut short is incomplete (40_rx_framer.md R133): a verdict on it would be the whole image's, which
consumes more. -/
theorem decodeBuf_take_wire {f : Frame} (hf : f.valid = true) {k : Nat} (hk : k < (wire f).length) :
    decodeBuf ((wire f).take k) = .incomplete := by
  by_contra hr
  have hwhole : decodeBuf (wire f) = .ok f (wire f).length := by simpa using decodeBuf_wire_append hf []
  have heq := decodeBuf_append ((wire f).drop k) hr
  rw [List.take_append_drop, hwhole] at heq
  have hle := consumedOf_decodeBuf_le hr
  simp only [← heq, consumedOf, List.length_take] at hle
  omega

/-! ### Changed bytes -/

/-- Changing one byte to another value changes the sum (40_rx_framer.md R134). -/
theorem sum8_set_eq_iff {xs : List Byte} {k : Nat} (hk : k < xs.length) (v : Byte) :
    sum8 (xs.set k v) = sum8 xs ↔ v = xs.getD k 0 := by
  induction xs generalizing k with
  | nil => simp at hk
  | cons x xs ih =>
    cases k with
    | zero => simp [sum8]
    | succ k => simpa [sum8] using ih (k := k) (by simpa using hk)

section

variable (l1 l2 s2 cs stop v : Byte) (body : List Byte)

theorem longBytes_set_body {k : Nat} (hk : k < body.length) :
    (longBytes l1 l2 s2 body cs stop).set (k + 4) v = longBytes l1 l2 s2 (body.set k v) cs stop := by
  simp [longBytes, List.set_append_left _ _ hk]

theorem longBytes_set_cs : (longBytes l1 l2 s2 body cs stop).set (body.length + 4) v = longBytes l1 l2 s2 body v stop := by
  simp [longBytes]

theorem longBytes_getD_body {k : Nat} (hk : k < body.length) :
    (longBytes l1 l2 s2 body cs stop).getD (k + 4) 0 = body.getD k 0 :=
  List.getD_append _ _ _ _ hk

theorem longBytes_getD_cs : (longBytes l1 l2 s2 body cs stop).getD (body.length + 4) 0 = cs := by
  simp [longBytes]

theorem length_longBytes : (longBytes l1 l2 s2 body cs stop).length = body.length + 6 := by
  simp [longBytes]

end

theorem longVerdict_badChecksum {l1 cs : Byte} {body : List Byte} (h3 : 3 ≤ l1.toNat) (hcs : cs ≠ sum8 body) :
    longVerdict l1 l1 startLong body cs stopByte = .err .checksumError (l1.toNat + 6) := by
  have : ¬ l1.toNat < 3 := by omega
  simp [longVerdict, this, hcs]

/-- One changed byte among the body and its checksum gives a `ChecksumError` (40_rx_framer.md R134). -/
theorem decodeBuf_set_longBytes {l1 v : Byte} {body : List Byte} (hlen : body.length = l1.toNat) (h3 : 3 ≤ l1.toNat) {k : Nat}
    (hk : k ≤ body.length) (hv : v ≠ (longBytes l1 l1 startLong body (sum8 body) stopByte).getD (k + 4) 0) :
    decodeBuf ((longBytes l1 l1 startLong body (sum8 body) stopByte).set (k + 4) v)
      = .err .checksumError (l1.toNat + 6) := by
  rcases Nat.lt_or_eq_of_le hk with hbody | rfl
  · rw [longBytes_getD_body _ _ _ _ _ _ hbody] at hv
    rw [longBytes_set_body _ _ _ _ _ _ _ hbody]
    have := decodeBuf_longWhole (body := body.set k v) l1 startLong (sum8 body) stopByte [] (by simpa using hlen)
    rw [List.append_nil] at this
    exact this.trans (longVerdict_badChecksum h3 fun heq => hv ((sum8_set_eq_iff hbody v).mp heq.symm))
  · rw [longBytes_getD_cs] at hv
    rw [longBytes_set_cs]
    have := decodeBuf_longWhole l1 startLong v stopByte [] hlen
    rw [List.append_nil] at this
    exact this.trans (longVerdict_badChecksum h3 hv)

end Sys2Proof.Machine

section

open Sys2Proof Sys2Proof.Machine

/-- Settles O18: an attempt on the path `decode` starts from, finished or not, against the closed form of its buffer. -/
theorem decodeIsItsClosedForm : Obligations.DecodeIsItsClosedForm := by
  unfold Obligations.DecodeIsItsClosedForm
  exact fun s buf => handsBack_decode buf s

/-- Settles O19: the closed form on a wire image; the empty Long frame has the image of a Control frame. -/
theorem decodingAWireImageGivesTheFrame : Obligations.DecodingAWireImageGivesTheFrame := by
  unfold Obligations.DecodingAWireImageGivesTheFrame
  refine ⟨fun s f t hf => handsBack_decode_iff.mpr (decodeBuf_wire_append hf t), fun s c a ci t => ?_⟩
  rw [wire_long_nil]
  exact handsBack_decode_iff.mpr (decodeBuf_wire_append rfl t)

/-- Settles O20: an image cut short, and a buffer of each kind that is too short. -/
theorem aShortBufferIsIncomplete : Obligations.AShortBufferIsIncomplete := by
  unfold Obligations.AShortBufferIsIncomplete
  exact fun s => ⟨fun f k hf hk => handsBack_decode_iff.mpr (decodeBuf_take_wire hf hk),
    fun bs hbs => handsBack_decode_iff.mpr (decodeBuf_shortPart hbs), handsBack_decode_iff.mpr decodeBuf_longStart,
    fun l bs hbs => handsBack_decode_iff.mpr (decodeBuf_longPart hbs)⟩

/-- Settles O21: a changed byte of the body changes its sum, a changed checksum is another; in the second part C goes up by
one and A down by one. -/
theorem oneChangedByteIsAChecksumError : Obligations.OneChangedByteIsAChecksumError := by
  unfold Obligations.OneChangedByteIsAChecksumError
  refine ⟨fun s c a ci p i v hp1 hp2 hi1 hi2 hv => handsBack_decode_iff.mpr ?_, ?_⟩
  · obtain ⟨k, rfl⟩ : ∃ k, i = k + 4 := ⟨i - 4, by omega⟩
    have hl := toNat_lengthByte hp2
    have hlen : (c :: a :: ci :: p).length = (lengthByte p).toNat := by simp [hl]; omega
    rw [wire_long] at hv ⊢
    rw [length_longBytes, hlen]
    exact decodeBuf_set_longBytes hlen (by omega) (by simp; omega) hv
  · refine ⟨1, 1, 0, [0], 4, 5, 2, 0, .long 2 0 0 [0], 10, by decide, by decide, by decide, by decide, by decide, fun s => ?_⟩
    exact handsBack_decode_iff.mpr (by decide)

/-- Settles O22: the closed form of the longer buffer, and feeding two parts in order. -/
theorem bytesAfterAFinishedAttemptDoNotMatter : Obligations.BytesAfterAFinishedAttemptDoNotMatter := by
  unfold Obligations.BytesAfterAFinishedAttemptDoNotMatter
  refine ⟨fun s buf t r hr h => ?_, fun s u buf t h => ?_⟩
  · obtain rfl := handsBack_decode_iff.mp h
    exact handsBack_decode_iff.mpr (decodeBuf_append t hr)
  · have hfeed : receiveAll buf s = .next u := h
    exact (receiveAll_append buf t s).trans (by rw [hfeed]; rfl)

end
end

section
/-! PROOF. Byte streams: feeding is repeated decoding, and every attempt ends within 261 bytes (40_rx_framer.md R110, R123, R130,
R136; 30_encoding.md R88). -/

namespace Sys2Proof.Machine

/-! ### One byte and a sequence of bytes -/

/-- A received byte takes a next state, with nothing or one receive event (40_rx_framer.md R110). -/
theorem receive_total {s : State} (b : Byte) (h : RxSeqOk s.rx) :
    ∃ o, rxStep b s.rx s.res = some o ∧ receive b s = .next (applyRx s o) ∧ RxSeqOk o.rx := by
  obtain ⟨o, ho⟩ := rxStep_some b s.res h
  exact ⟨o, ho, receive_of_rxStep ho, rxStep_seqOk ho⟩

theorem receiveAll_cons {b : Byte} {s t : State} (h : receive b s = .next t) (bs : List Byte) :
    receiveAll (b :: bs) s = receiveAll bs t := by
  simp only [receiveAll, h]

theorem receiveAll_append_of_next {as : List Byte} {s t : State} (h : receiveAll as s = .next t) (bs : List Byte) :
    receiveAll (as ++ bs) s = receiveAll bs t := by
  rw [receiveAll_append, h]

/-- Every byte sequence is received, with at most one event for each byte (30_encoding.md R88). -/
theorem receiveAll_total (bs : List Byte) {s : State} (h : RxSeqOk s.rx) :
    ∃ t, receiveAll bs s = .next t ∧ RxSeqOk t.rx
      ∧ ∃ es, t.events = s.events ++ es ∧ es.length ≤ bs.length ∧ ∀ e ∈ es, e.fromRx = true := by
  induction bs generalizing s with
  | nil => exact ⟨s, rfl, h, [], by simp⟩
  | cons b bs ih =>
    obtain ⟨o, ho, hb, hseq⟩ := receive_total b h
    obtain ⟨t, ht, hseq', es, hes, hlen, hrx⟩ := ih (s := applyRx s o) hseq
    refine ⟨t, (receiveAll_cons hb bs).trans ht, hseq', o.event.toList ++ es, by simp [hes], ?_, fun e he => ?_⟩
    · have : o.event.toList.length ≤ 1 := by cases o.event <;> simp
      simp only [List.length_append, List.length_cons]
      omega
    · rcases List.mem_append.mp he with he | he
      · exact rxStep_event_fromRx ho e he
      · exact hrx e he

/-! ### A stream, attempt by attempt -/

theorem eventOf_eq_none_iff {buf : List Byte} {r : DecodeResult} : eventOf buf r = none ↔ r = .incomplete := by
  cases r with
  | ok f n => simp [eventOf]
  | err k n => cases k <;> simp [eventOf]
  | incomplete => simp [eventOf]

/-- The bytes of the attempt a stream leaves unfinished. -/
def streamTail : Nat → List Byte → List Byte
  | 0, bs => bs
  | fuel + 1, bs =>
    if decodeBuf bs = .incomplete then bs else streamTail fuel (bs.drop (consumedOf (decodeBuf bs)))

/-- Feeding a finished attempt emits its verdict, and the path hunts again for what is left. -/
theorem receiveAll_of_ne_incomplete {s : State} (hclean : CleanRx s) (hw : s.rx.body.wf) {buf : List Byte}
    (h : decodeBuf buf ≠ .incomplete) :
    ∃ u e, eventOf buf (decodeBuf buf) = some e ∧ CleanRx u ∧ u.rx.body.wf ∧ u.events = s.events ++ [e]
      ∧ 1 ≤ consumedOf (decodeBuf buf)
      ∧ receiveAll buf s = receiveAll (buf.drop (consumedOf (decodeBuf buf))) u := by
  obtain ⟨bs, b, t, mid, hbuf, hn, hacc, hstep⟩ := verdict_of_ne_incomplete s.res hclean.1 hw h
  obtain ⟨e, he⟩ := Option.ne_none_iff_exists'.mp (mt eventOf_eq_none_iff.mp h)
  have hrx := verdictOut_rx (buf.headD 0) h mid s.res
  have hev : (verdictOut (buf.headD 0) (decodeBuf buf) mid s.res).event = some e := by
    have hhead : buf.headD 0 :: buf.tail = buf := by rw [hbuf]; cases bs <;> rfl
    rw [verdictOut_event _ buf.tail, hhead, he]
  generalize verdictOut (buf.headD 0) (decodeBuf buf) mid s.res = o at hstep hrx hev
  have hlast : receive b { s with rx := mid } = .next (applyRx { s with rx := mid } o) := receive_of_rxStep hstep
  refine ⟨applyRx { s with rx := mid } o, e, he, ⟨by simp [hrx], by simp [hrx]⟩, ?_, by simp [hev], by omega, ?_⟩
  · simpa [hrx] using hacc.body_wf hw
  · have hrest : buf.drop (consumedOf (decodeBuf buf)) = t := by
      rw [hn, hbuf]
      simp [List.drop_append]
    calc receiveAll buf s = receiveAll (bs ++ b :: t) s := by rw [← hbuf]
      _ = receiveAll (b :: t) { s with rx := mid } := receiveAll_append_of_next hacc.receiveAll _
      _ = _ := by rw [receiveAll_cons hlast, hrest]

/-- Feeding a stream to a hunting path: the events of repeated decoding, and the place where the unfinished attempt stands
(40_rx_framer.md R136). -/
theorem receiveAll_stream (fuel : Nat) {s : State} (hclean : CleanRx s) (hw : s.rx.body.wf) {bs : List Byte}
    (hlen : bs.length ≤ fuel) :
    ∃ t, receiveAll bs s = .next t ∧ t.events = s.events ++ streamEvents fuel bs
      ∧ t.rx.state = openState (streamTail fuel bs) ∧ t.rx.cnt = (streamTail fuel bs).length := by
  induction fuel generalizing s bs with
  | zero =>
    obtain rfl : bs = [] := List.eq_nil_of_length_eq_zero (by omega)
    exact ⟨s, rfl, by simp [streamEvents], hclean⟩
  | succ fuel ih =>
    by_cases hr : decodeBuf bs = .incomplete
    · obtain ⟨rx', hacc, hst, hcnt⟩ := accepts_of_incomplete s.res hclean.1 hclean.2 hr
      refine ⟨_, hacc.receiveAll, ?_, ?_, ?_⟩
      · simp [streamEvents, eventOf_eq_none_iff.mpr hr]
      · simpa [streamTail, hr] using hst
      · simpa [streamTail, hr] using hcnt
    · obtain ⟨u, e, he, hclean', hw', hev, hn, hrest⟩ := receiveAll_of_ne_incomplete hclean hw hr
      obtain ⟨t, ht, hev', hplace⟩ := ih hclean' hw' (bs := bs.drop (consumedOf (decodeBuf bs)))
        (by rw [List.length_drop]; omega)
      refine ⟨t, hrest.trans ht, ?_, ?_⟩
      · simp [hev', hev, streamEvents, he]
      · simpa [streamTail, hr] using hplace

/-! ### The bytes an attempt can still take -/

/-- The most bytes the attempt in progress can take before its verdict (40_rx_framer.md R123). -/
def bytesLeft (rx : Rx) : Nat :=
  match rx.state with
  | .hunt => 261
  | .short => 5 - rx.cnt
  | .long => if rx.cnt = 1 then 260 else rx.l1.toNat + 6 - rx.cnt

theorem bytesLeft_pos {rx : Rx} (h : RxSeqOk rx) : 1 ≤ bytesLeft rx := by
  obtain ⟨-, hshort, hlong⟩ := h
  unfold bytesLeft
  cases hst : rx.state with
  | hunt => simp
  | short => have := hshort hst; simp; omega
  | long => have := hlong hst; simp only; split <;> omega

theorem bytesLeft_le {rx : Rx} (h : RxSeqOk rx) : bytesLeft rx ≤ 261 := by
  obtain ⟨-, hshort, hlong⟩ := h
  have := rx.l1.isLt
  unfold bytesLeft
  cases hst : rx.state with
  | hunt => simp
  | short => simp; omega
  | long => have := hlong hst; simp only; split <;> omega

/-- A byte without a verdict leaves less to take. -/
theorem bytesLeft_lt_of_rxStep {b : Byte} {rx : Rx} {res : Res} {o : RxOut} (h : rxStep b rx res = some o)
    (hev : o.event = none) : bytesLeft o.rx < bytesLeft rx := by
  rcases rxStep_cases h with ⟨hst, rfl⟩ | ⟨hst, h1, h3, rfl⟩ | ⟨hst, hcnt, rfl⟩ | ⟨hst, hcnt, rfl⟩ | ⟨hst, h2, hcnt, rfl⟩
  · simp only [rxHunt] at hev ⊢
    split_ifs at hev ⊢
    · simp [completeFrame] at hev
    · simp [rxStart, bytesLeft, hst]
    · simp [rxStart, bytesLeft, hst]
    · simp [raiseError] at hev
  · simp [bytesLeft, hst]
    omega
  · simp only [rxShortStop] at hev
    split_ifs at hev <;> simp [raiseError, completeFrame] at hev
  · have := b.isLt
    by_cases h1 : rx.cnt = 1
    · simp [bytesLeft, hst, h1]
      omega
    · have h0 : rx.cnt ≠ 0 := by omega
      simp [bytesLeft, hst, h1, h0]
      omega
  · simp only [rxLongStop] at hev
    split_ifs at hev <;> simp [raiseError, completeFrame] at hev

/-- Feeding as many bytes as the attempt can take reaches its verdict (40_rx_framer.md R123). -/
theorem exists_verdict_of_bytesLeft_le (bs : List Byte) {s : State} (hseq : RxSeqOk s.rx) (hlen : bytesLeft s.rx ≤ bs.length) :
    ∃ k t, 1 ≤ k ∧ k ≤ bs.length ∧ receiveAll (bs.take k) s = .next t ∧ t.rx.state = .hunt
      ∧ ∃ e, e.fromRx = true ∧ t.events = s.events ++ [e] := by
  induction bs generalizing s with
  | nil =>
    have := bytesLeft_pos hseq
    simp at hlen
    omega
  | cons b bs ih =>
    obtain ⟨o, ho, hb, hseq'⟩ := receive_total b hseq
    cases hev : o.event with
    | some e =>
      refine ⟨1, applyRx s o, le_rfl, by simp, receiveAll_cons hb [], ?_, e, ?_, by simp [hev]⟩
      · rcases rxStep_verdict ho with ⟨hnone, -⟩ | ⟨k, n, v, rfl, -⟩ | ⟨f, n, rfl, -⟩
        · simp [hnone] at hev
        · rfl
        · rfl
      · exact rxStep_event_fromRx ho e (by simp [hev])
    | none =>
      have hless := bytesLeft_lt_of_rxStep ho hev
      obtain ⟨k, t, hk1, hk, ht, hst, e, he, hevents⟩ := ih (s := applyRx s o) hseq' (by simp at hlen ⊢; omega)
      refine ⟨k + 1, t, by omega, by simpa using hk, ?_, hst, e, he, by simpa [hev] using hevents⟩
      rw [List.take_succ_cons, receiveAll_cons hb, ht]

end Sys2Proof.Machine

section

open Sys2Proof Sys2Proof.Machine

/-- Settles O10: the receive step has a case for every state in range. -/
theorem receivingIsTotal : Obligations.ReceivingIsTotal := by
  unfold Obligations.ReceivingIsTotal
  intro s b hseq
  obtain ⟨o, ho, hb, hseq'⟩ := receive_total b hseq
  refine ⟨applyRx s o, hb, hseq', ?_⟩
  cases hev : o.event with
  | none => exact .inl (by simp [hev])
  | some e => exact .inr ⟨e, rxStep_event_fromRx ho e (by simp [hev]), by simp [hev]⟩

/-- Settles O17: an induction over the bytes. -/
theorem everyByteSequenceIsReceived : Obligations.EveryByteSequenceIsReceived := by
  unfold Obligations.EveryByteSequenceIsReceived
  exact ⟨fun s bs hseq => receiveAll_total bs hseq, fun s => rfl, fun s t b bs h => receiveAll_cons h bs⟩

/-- Settles O23: an induction over the attempts of the stream. -/
theorem feedingIsRepeatedDecoding : Obligations.FeedingIsRepeatedDecoding := by
  unfold Obligations.FeedingIsRepeatedDecoding
  intro s bs hclean hw
  obtain ⟨t, ht, hev, -⟩ := receiveAll_stream bs.length hclean hw le_rfl
  exact ⟨t, ht, hev⟩

/-- Settles O24: both blocks emit the events of repeated decoding and stand where the same unfinished attempt stands. -/
theorem earlierFramesDoNotInfluenceReception : Obligations.EarlierFramesDoNotInfluenceReception := by
  unfold Obligations.EarlierFramesDoNotInfluenceReception
  intro s s' t t' bs hclean hclean' hw hw' h h'
  obtain ⟨u, hu, hev, hst, hcnt⟩ := receiveAll_stream bs.length hclean hw le_rfl
  obtain ⟨u', hu', hev', hst', hcnt'⟩ := receiveAll_stream bs.length hclean' hw' le_rfl
  obtain rfl : t = u := by simpa using h.symm.trans hu
  obtain rfl : t' = u' := by simpa using h'.symm.trans hu'
  exact ⟨hst.trans hst'.symm, hcnt.trans hcnt'.symm, _, hev, hev'⟩

/-- Settles O25: each byte without a verdict leaves less of the attempt to take, and there is never more than 261. -/
theorem aVerdictComesWithin261Bytes : Obligations.AVerdictComesWithin261Bytes := by
  unfold Obligations.AVerdictComesWithin261Bytes
  intro s bs hseq hlen
  obtain ⟨k, t, hk1, hk, ht, hst, he⟩ := exists_verdict_of_bytesLeft_le bs hseq (hlen ▸ bytesLeft_le hseq)
  exact ⟨k, t, hk1, hlen ▸ hk, ht, hst, he⟩

end
end

section
/-! PROOF. What a received byte reports and where it is stored, and the arrival of a whole frame (40_rx_framer.md R110 to R121;
30_encoding.md R80, R84). -/

namespace Sys2Proof.Machine

/-! ### The count a verdict reports -/

/-- A failed verdict of a receive step reports the bytes of its attempt (40_rx_framer.md R121). -/
def FailedAt (b : Byte) (rx : Rx) (k : RxError) (v : Byte) : Prop :=
  (rx.state = .hunt ∧ rx.cnt = 0 ∧ k = .framingError ∧ v = b)
  ∨ (rx.state = .short ∧ rx.cnt = 4 ∧ k ≠ .framingError)
  ∨ (rx.state = .long ∧ rx.cnt = rx.l1.toNat + 5 ∧ k ≠ .framingError)

/-- What each verdict of a receive step is, and the count it reports and records (40_rx_framer.md R121). -/
theorem consumed_of_rxStep {b : Byte} {rx : Rx} {res : Res} {o : RxOut} (hseq : RxSeqOk rx)
    (h : rxStep b rx res = some o) {e : Event} (he : o.event = some e) :
    o.rx.state = .hunt ∧ o.rx.cnt = 0 ∧ o.res.consumed = rx.cnt + 1
    ∧ ((∃ k v, e = .error k (rx.cnt + 1) v ∧ FailedAt b rx k v)
      ∨ (∃ f, e = .frameOk f (rx.cnt + 1) ∧ rx.cnt + 1 = (wire f).length)) := by
  obtain ⟨hhunt, -, -⟩ := hseq
  rcases rxStep_verdict h with ⟨hnone, -, -⟩ | ⟨k, n, v, rfl, hfail⟩ | ⟨f, n, rfl, hgood⟩
  · simp [hnone] at he
  · have hn : n = rx.cnt + 1 := by
      rcases hfail with ⟨hst, -, hn, -⟩ | ⟨-, hcnt, -, hn⟩ | ⟨-, -, hcnt, -, hn⟩
      · rw [hn, hhunt.mp hst]
      · rw [hn, hcnt]
      · rw [hn, hcnt]
    subst hn
    refine ⟨rfl, rfl, rfl, .inl ⟨k, _, (Option.some.inj he).symm, ?_⟩⟩
    rcases hfail with ⟨hst, hk, -, hv⟩ | ⟨hst, hcnt, hk, -⟩ | ⟨hst, -, hcnt, hk, -⟩
    · exact .inl ⟨hst, hhunt.mp hst, hk, (if_pos hk).trans hv⟩
    · exact .inr (.inl ⟨hst, hcnt, hk⟩)
    · exact .inr (.inr ⟨hst, hcnt, hk⟩)
  · obtain ⟨hn, hlen⟩ : n = rx.cnt + 1 ∧ rx.cnt + 1 = (wire f).length := by
      rcases hgood with ⟨hst, rfl, rfl⟩ | ⟨-, hcnt, rfl, rfl⟩ | ⟨-, hcnt, -, rfl, rfl⟩ | ⟨-, hcnt, hl1, rfl, rfl⟩
      · simp [hhunt.mp hst, wire]
      · simp [hcnt, wire]
      · simp [hcnt, wire]
      · simp [hcnt, wire]
        omega
    subst hn
    exact ⟨rfl, rfl, by cases f <;> rfl, .inr ⟨f, (Option.some.inj he).symm, hlen⟩⟩

/-! ### Where a byte is stored -/

section

variable (b : Byte) (rx : Rx) (res : Res)

@[simp] theorem rxHunt_body : (rxHunt b rx res).rx.body = rx.body := by
  simp only [rxHunt]
  split_ifs <;> rfl

@[simp] theorem rxShortStop_body : (rxShortStop b rx res).rx.body = rx.body := by
  simp only [rxShortStop]
  split_ifs <;> rfl

@[simp] theorem rxLongStop_body : (rxLongStop b rx res).rx.body = rx.body := by
  simp only [rxLongStop]
  split_ifs <;> rfl

end

/-- The body after a receive step: the byte stands at the element its position names (40_rx_framer.md R114, R116). -/
theorem rxStep_body_eq {b : Byte} {rx : Rx} {res : Res} {o : RxOut} (h : rxStep b rx res = some o) :
    o.rx.body = match bodyIndex rx with
      | none => rx.body
      | some a => rx.body.write a b := by
  rcases rxStep_cases h with ⟨hst, rfl⟩ | ⟨hst, h1, h3, rfl⟩ | ⟨hst, hcnt, rfl⟩ | ⟨hst, hcnt, rfl⟩ | ⟨hst, h2, hcnt, rfl⟩
  · simp [bodyIndex, hst]
  · simp only [rxShortBody, bodyIndex, hst]
    split_ifs <;> rfl
  · simp [bodyIndex, hst, hcnt]
  · by_cases h1 : rx.cnt = 1
    · simp [rxLongBody, bodyIndex, hst, h1]
    by_cases h2 : rx.cnt = 2
    · simp [rxLongBody, bodyIndex, hst, h2]
    by_cases h3 : rx.cnt = 3
    · simp [rxLongBody, bodyIndex, hst, h3]
    have h4 : 4 ≤ rx.cnt := by omega
    simp only [rxLongBody, bodyIndex, hst, h1, h2, h3, h4, if_false, true_and]
    split_ifs <;> rfl
  · simp [bodyIndex, hst, hcnt]

theorem rxStep_read_body {b : Byte} {rx : Rx} {res : Res} {o : RxOut} (hw : rx.body.wf) (h : rxStep b rx res = some o) (a : Nat) :
    o.rx.body.read a = if bodyIndex rx = some a then b else rx.body.read a := by
  rw [rxStep_body_eq h]
  cases bodyIndex rx with
  | none => simp
  | some k => simp [Memory.read_write _ _ _ _ hw, eq_comm]

/-- The payload buffer after a receive step changes by a good Long frame only, to that frame's payload (10_state.md R35, R36). -/
theorem rxStep_pay {b : Byte} {rx : Rx} {res : Res} {o : RxOut} (h : rxStep b rx res = some o) :
    (∃ c a ci p n, o.event = some (.frameOk (.long c a ci p) n) ∧ o.res.pay = res.pay.writeRange 0 p)
    ∨ ((∀ c a ci p n, o.event ≠ some (.frameOk (.long c a ci p) n)) ∧ o.res.pay = res.pay) := by
  rcases rxStep_verdict h with ⟨hnone, hres, -⟩ | ⟨k, n, v, rfl, -⟩ | ⟨f, n, rfl, -⟩
  · exact .inr ⟨by simp [hnone], by rw [hres]⟩
  · exact .inr ⟨by simp [raiseError], rfl⟩
  · cases f with
    | long c a ci p => exact .inl ⟨c, a, ci, p, n, rfl, rfl⟩
    | ack | short | control => exact .inr ⟨by simp [completeFrame], rfl⟩

end Sys2Proof.Machine

section

open Sys2Proof Sys2Proof.Machine

/-- Settles O11: a class row is its own effect where its condition holds, which is then what receiving its byte does. -/
theorem classRowsAreReceivedBytes : Obligations.ClassRowsAreReceivedBytes := by
  unfold Obligations.ClassRowsAreReceivedBytes
  exact fun i b s h => exec_classByte_eq_receive h s

/-- Settles O12: every verdict of the receive step, with the count it reports. -/
theorem bytesConsumedPerOutcome : Obligations.BytesConsumedPerOutcome := by
  unfold Obligations.BytesConsumedPerOutcome
  intro s t b e hseq hexec hevents
  obtain ⟨o, hstep, rfl⟩ := receive_next hexec
  obtain ⟨hst, hcnt, hconsumed, hout⟩ := consumed_of_rxStep hseq hstep (event_of_applyRx_events hevents)
  refine ⟨hst, hcnt, hconsumed, ?_⟩
  rw [applyRx_res, hconsumed]
  rcases hout with ⟨k, v, rfl, hplace⟩ | ⟨f, rfl, hlen⟩
  · rcases hplace with ⟨hst, hcnt, rfl, rfl⟩ | ⟨hst, hcnt, hk⟩ | ⟨hst, hcnt, hk⟩
    · simp +contextual [hst, hcnt, eq_comm]
    · simp [hst, hcnt, hk]
    · simp [hst, hcnt, hk]
  · cases f <;> simp [wire_length] at hlen <;> simp +contextual [hlen, eq_comm]

/-- Settles O14: the body by its index, the payload by the event; a class row receives its byte. -/
theorem whereAReceivedByteIsStored : Obligations.WhereAReceivedByteIsStored := by
  unfold Obligations.WhereAReceivedByteIsStored
  intro i b s t hi hbody hpay hexec
  have hreceive : receive b s = .next t := by
    rcases hi with hclass | rfl
    · rw [← hexec, exec_classByte_eq_receive hclass]
    · exact hexec
  obtain ⟨o, hstep, rfl⟩ := receive_next hreceive
  refine ⟨rxStep_read_body hbody hstep, fun c a ci p n hevents k => ?_, fun hno k => ?_, fun k => rfl⟩
  · have he := event_of_applyRx_events hevents
    rcases rxStep_pay hstep with ⟨c', a', ci', p', n', he', hp⟩ | ⟨hne, -⟩
    · obtain ⟨⟨rfl, rfl, rfl, rfl⟩, rfl⟩ : (c' = c ∧ a' = a ∧ ci' = ci ∧ p' = p) ∧ n' = n := by simpa [he'] using he
      rw [applyRx_res, hp, Memory.read_writeRange _ _ _ hpay]
      simp
    · exact absurd he (hne c a ci p n)
  · rcases rxStep_pay hstep with ⟨c, a, ci, p, n, he, -⟩ | ⟨-, hp⟩
    · exact absurd (by simp [he]) (hno c a ci p n)
    · rw [applyRx_res, hp]

end
end

section
/-! PROOF. The kinds of instruction and what each leaves unchanged (20_memory.md R66, R70; 10_state.md R20), and the arrival of a
whole frame while the path hunts (30_encoding.md R80, R84). -/

namespace Sys2Proof.Machine

/-! ### What each kind of instruction does -/

section

variable {i : Instr} {s t : State}

theorem exec_of_receives (hi : i.receives = true) (h : exec i s = .next t) : ∃ bs, receiveAll bs s = .next t := by
  have oneByte {b : Byte} (hclass : i.classByte b) : ∃ bs, receiveAll bs s = .next t :=
    ⟨[b], receiveAll_cons (exec_class_next i b hclass h) []⟩
  cases i
  case frameAck | frameShort | frameControl | feed => exact ⟨_, h⟩
  case frameLong c a ci p =>
    simp only [exec, execFrameLong] at h
    split_ifs at h
    exact ⟨_, h⟩
  case rxHuntAck | rxHuntStartShort | rxHuntStartLong | rxHuntOther | rxShortBody | rxShortStop | rxLongBody | rxLongStop =>
    exact oneByte rfl
  case rxByte b => exact ⟨[b], receiveAll_cons h []⟩
  all_goals cases hi

theorem exec_of_asks (hi : i.asks = true) (h : exec i s = .next t) : ∃ a, t = answer s a := by
  cases i
  case hostRead | recHeader | extract | recDecode =>
    obtain ⟨a, -, ht⟩ := answerOrRefuse_next h
    exact ⟨a, ht⟩
  case frameAck | frameShort | frameControl | frameLong | rxHuntAck | rxHuntStartShort | rxHuntStartLong | rxHuntOther
      | rxShortBody | rxShortStop | rxLongBody | rxLongStop | rxByte | txStart | txStep | reset | rxFlush | feed | encode
      | send => cases hi
  all_goals
    cases h
    exact ⟨_, rfl⟩

theorem exec_encode_next {req : TxReq} (h : exec (.encode req) s = .next t) :
    ∃ u, sendFrame req s = .next u ∧ t = answer u (.encoded (collected req s u)) := by
  simp only [exec, execEncode] at h
  split at h
  next u hu => exact ⟨u, hu, by cases h; rfl⟩
  all_goals cases h

/-- Every instruction is of one of the kinds. -/
theorem instr_kinds (i : Instr) :
    i.receives = true ∨ i.asks = true ∨ i.transmits = true ∨ i = .reset ∨ i = .rxFlush := by
  cases i
  case frameAck | frameShort | frameControl | frameLong | rxHuntAck | rxHuntStartShort | rxHuntStartLong | rxHuntOther
      | rxShortBody | rxShortStop | rxLongBody | rxLongStop | rxByte | feed => exact .inl rfl
  case txStart | txStep | encode | send => exact .inr (.inr (.inl rfl))
  case reset => exact .inr (.inr (.inr (.inl rfl)))
  case rxFlush => exact .inr (.inr (.inr (.inr rfl)))
  all_goals exact .inr (.inl rfl)

end

/-! ### What receiving leaves unchanged -/

/-- From `s` to `t` only the receive path, the result registers and events of their kind changed. -/
structure OnlyRx (s t : State) : Prop where
  tx : t.tx = s.tx
  cfg : t.cfg = s.cfg
  inputs : t.inputs = s.inputs
  answers : t.answers = s.answers
  freeCount : t.freeCount = s.freeCount
  events : ∃ es, t.events = s.events ++ es ∧ ∀ e ∈ es, e.fromRx = true

theorem OnlyRx.refl (s : State) : OnlyRx s s := ⟨rfl, rfl, rfl, rfl, rfl, [], by simp⟩

theorem OnlyRx.receive {b : Byte} {s u t : State} (h : OnlyRx s u) (hb : receive b u = .next t) : OnlyRx s t := by
  obtain ⟨o, hstep, rfl⟩ := receive_next hb
  obtain ⟨htx, hcfg, hinputs, hanswers, hfree, es, hes, hrx⟩ := h
  refine ⟨htx, hcfg, hinputs, hanswers, hfree, es ++ o.event.toList, by simp [hes], fun e he => ?_⟩
  rcases List.mem_append.mp he with he | he
  · exact hrx e he
  · exact rxStep_event_fromRx hstep e he

theorem receiveAll_onlyRx {bs : List Byte} {s t : State} (h : receiveAll bs s = .next t) : OnlyRx s t :=
  receiveAll_keeps (P := OnlyRx s) (fun _ _ _ hu hb => hu.receive hb) bs (.refl s) h

/-! ### What transmitting leaves unchanged -/

/-- From `s` to `t` only the transmit path, the free values taken and events of its kind changed. -/
structure OnlyTx (s t : State) : Prop where
  rx : t.rx = s.rx
  res : t.res = s.res
  cfg : t.cfg = s.cfg
  inputs : t.inputs = s.inputs
  answers : t.answers = s.answers
  events : ∃ es, t.events = s.events ++ es ∧ ∀ e ∈ es, e.fromRx = false

theorem OnlyTx.refl (s : State) : OnlyTx s s := ⟨rfl, rfl, rfl, rfl, rfl, [], by simp⟩

theorem OnlyTx.trans {s u t : State} (h : OnlyTx s u) (h' : OnlyTx u t) : OnlyTx s t := by
  obtain ⟨es, hes, hfrom⟩ := h.events
  obtain ⟨es', hes', hfrom'⟩ := h'.events
  refine ⟨h'.rx.trans h.rx, h'.res.trans h.res, h'.cfg.trans h.cfg, h'.inputs.trans h.inputs, h'.answers.trans h.answers,
    es ++ es', by rw [hes', hes, List.append_assoc], fun e he => ?_⟩
  rcases List.mem_append.mp he with he | he
  · exact hfrom e he
  · exact hfrom' e he

theorem startTx_onlyTx (req : TxReq) (s : State) : OnlyTx s (startTx req s) := by
  rcases startTx_cases req s with ⟨-, h⟩ | ⟨-, -, h⟩ | ⟨w, -, -, h⟩ <;> rw [h]
  · exact ⟨rfl, rfl, rfl, rfl, rfl, [.txRejected .txBusy], rfl, by simp [Event.fromRx]⟩
  · exact ⟨rfl, rfl, rfl, rfl, rfl, [.txRejected .invalidFrame], rfl, by simp [Event.fromRx]⟩
  · exact ⟨rfl, rfl, rfl, rfl, rfl, [], by simp⟩

theorem advanceTx_events_fromRx (b free : Byte) (tx : Tx) : ∀ e ∈ (advanceTx b free tx).2, e.fromRx = false := by
  simp only [advanceTx]
  split_ifs <;> simp [Event.fromRx]

theorem stepTx_onlyTx {s t : State} (h : stepTx s = .next t) : OnlyTx s t := by
  rcases stepTx_next h with ⟨-, rfl⟩ | ⟨b, -, -, rfl⟩
  · exact .refl _
  · exact ⟨rfl, rfl, rfl, rfl, rfl, _, rfl, advanceTx_events_fromRx b _ _⟩

theorem sendFrame_onlyTx {req : TxReq} {s t : State} (h : sendFrame req s = .next t) : OnlyTx s t :=
  stepTxTimes_keeps (P := OnlyTx s) (fun _ _ hu hstep => hu.trans (stepTx_onlyTx hstep)) _ (startTx_onlyTx req s) h

/-- A transmit instruction other than `encode` writes the transmit path only. -/
theorem exec_onlyTx_of_transmits {i : Instr} {s t : State} (hi : i.transmits = true) (hne : ∀ req, i ≠ .encode req)
    (h : exec i s = .next t) : OnlyTx s t := by
  cases i
  case txStart req => cases h; exact startTx_onlyTx req s
  case txStep => exact stepTx_onlyTx h
  case send req => exact sendFrame_onlyTx h
  case encode req => exact absurd rfl (hne req)
  all_goals cases hi

/-- A transmit instruction writes the transmit path only, and hands back a value when it is `encode`. -/
theorem exec_of_transmits {i : Instr} {s t : State} (hi : i.transmits = true) (h : exec i s = .next t) :
    OnlyTx s t ∨ ∃ req u a, i = .encode req ∧ OnlyTx s u ∧ t = answer u a := by
  by_cases hne : ∀ req, i ≠ .encode req
  · exact .inl (exec_onlyTx_of_transmits hi hne h)
  · obtain ⟨req, rfl⟩ : ∃ req, i = .encode req := by simpa using hne
    obtain ⟨u, hu, ht⟩ := exec_encode_next h
    exact .inr ⟨req, u, _, rfl, sendFrame_onlyTx hu, ht⟩

/-! ### The arrival of a whole frame -/

theorem exec_toInstr {f : Frame} (hf : f.valid = true) (s : State) : exec f.toInstr s = receiveAll (wire f) s := by
  cases f with
  | ack | short | control => rfl
  | long c a ci p =>
    have hp : 1 ≤ p.length ∧ p.length ≤ maxPayload := of_decide_eq_true hf
    exact if_pos hp.2

/-- Bytes taken without a verdict and then a good verdict. -/
theorem receiveAll_of_good {s : State} {bs : List Byte} {mid : Rx} (hacc : Accepts s.res bs s.rx mid) {b c : Byte} {f : Frame}
    {n : Nat} (h : rxStep b mid s.res = some (verdictOut c (.ok f n) mid s.res)) :
    receiveAll (bs ++ [b]) s = .next { goodVerdict s f n with rx := { mid with state := .hunt, cnt := 0 } } := by
  have hlast : receive b { s with rx := mid } = .next (goodVerdict { s with rx := mid } f n) :=
    (receive_of_rxStep h).trans (congrArg _ (applyRx_completeFrame { s with rx := mid } f n))
  exact (receiveAll_append_of_next hacc.receiveAll [b]).trans (receiveAll_cons hlast [])

theorem receiveAll_wire_short {s : State} (hst : s.rx.state = .hunt) (hw : s.rx.body.wf) (c a : Byte) :
    receiveAll (wire (.short c a)) s = .next
      { goodVerdict s (.short c a) 5 with rx := { atShortStop c a (c + a) s.rx with state := .hunt, cnt := 0 } } := by
  refine receiveAll_of_good (accepts_short s.res hst c a (c + a)) (c := startShort) ?_
  rw [rxStep_of_shortStop _ _ rfl rfl, rxShortStop_atShortStop hw c a (c + a) stopByte startShort]
  simp [shortVerdict]

theorem receiveAll_longBytes {s : State} (hst : s.rx.state = .hunt) (hw : s.rx.body.wf) {l1 : Byte} {body : List Byte}
    (hlen : body.length = l1.toNat) (h3 : 3 ≤ l1.toNat) :
    receiveAll (longBytes l1 l1 startLong body (sum8 body) stopByte) s = .next
      { goodVerdict s (bodyFrame body) (l1.toNat + 6) with
        rx := { atLongStop l1 l1 startLong body (sum8 body) s.rx with state := .hunt, cnt := 0 } } := by
  have hbytes : longBytes l1 l1 startLong body (sum8 body) stopByte =
      startLong :: l1 :: l1 :: startLong :: (body ++ [sum8 body]) ++ [stopByte] := by simp [longBytes]
  rw [hbytes]
  refine receiveAll_of_good (accepts_long s.res hst hlen l1 startLong (sum8 body)) (c := startLong) ?_
  rw [rxStep_of_longStop _ _ rfl rfl, rxLongStop_atLongStop hw hlen l1 startLong (sum8 body) stopByte startLong,
    longVerdict_good h3]

end Sys2Proof.Machine

section

open Sys2Proof Sys2Proof.Machine

/-- Settles O15: the three kinds, each by what it leaves unchanged. -/
theorem eachKindTouchesOnlyItsOwn : Obligations.EachKindTouchesOnlyItsOwn := by
  unfold Obligations.EachKindTouchesOnlyItsOwn
  intro i s t h
  refine ⟨fun hi => ?receiving, fun hi => ?transmitting, fun hi => exec_of_asks hi h⟩
  case receiving =>
    obtain ⟨bs, hbs⟩ := exec_of_receives hi h
    obtain ⟨htx, hcfg, hinputs, hanswers, hfree, hevents⟩ := receiveAll_onlyRx hbs
    exact ⟨htx, hcfg, hinputs, hanswers, hfree, hevents⟩
  case transmitting =>
    rcases exec_of_transmits hi h with honly | ⟨req, u, a, rfl, honly, rfl⟩
    · exact ⟨honly.rx, honly.res, honly.cfg, honly.inputs, fun _ => honly.answers, honly.events⟩
    · exact ⟨honly.rx, honly.res, honly.cfg, honly.inputs, fun hne => absurd rfl (hne req), honly.events⟩

/-- Settles O16: the bytes before the stop byte are taken without a verdict, and the stop byte completes the frame. -/
theorem aWireImageIsReceivedAsItsFrame : Obligations.AWireImageIsReceivedAsItsFrame := by
  unfold Obligations.AWireImageIsReceivedAsItsFrame
  refine ⟨fun s f hclean hw hf => ?_, fun s c a ci => ?emptyLong, fun s c a ci p hp => if_neg (Nat.not_le.mpr hp)⟩
  case emptyLong =>
    have hrow : exec (.frameLong c a ci []) s = receiveAll (wire (.long c a ci [])) s := rfl
    rw [hrow, wire_long_nil]
    rfl
  rw [exec_toInstr hf]
  cases f with
  | ack =>
    refine ⟨s.rx, ?_, hclean.1, hclean.2, hw, fun _ => rfl, by simp, by simp, by simp⟩
    have hack := receiveAll_of_good (s := s) (f := .ack) (n := 1) .nil (b := ackByte) (c := ackByte)
      (by simp [rxStep_of_hunt _ _ hclean.1, rxHunt, verdictOut])
    have hrx : s.rx = { s.rx with state := .hunt, cnt := 0 } := by rw [← hclean.1, ← hclean.2]
    rw [← hrx] at hack
    exact hack
  | short c a =>
    refine ⟨_, receiveAll_wire_short hclean.1 hw c a, rfl, rfl, Memory.wf_write _ _ (Memory.wf_write _ _ hw), by simp, ?_,
      by simp, by simp⟩
    rintro _ _ ⟨⟩
    exact ⟨rfl, rfl, Memory.readRange_writeRange [c, a] hw 0⟩
  | control c a ci =>
    have hrun := receiveAll_longBytes hclean.1 hw (l1 := 3) (body := [c, a, ci]) rfl (by decide)
    rw [← wire_control] at hrun
    refine ⟨_, hrun, rfl, rfl, Memory.wf_writeRange _ _ hw, by simp, by simp, ?_, by simp⟩
    rintro _ _ _ ⟨⟩
    have hsum : sum8 [c, a, ci] = c + a + ci := by simp [sum8, BitVec.add_assoc]
    exact ⟨hsum, hsum, Memory.readRange_writeRange [c, a, ci] hw 0⟩
  | long c a ci p =>
    obtain ⟨hp1, hp2⟩ : 1 ≤ p.length ∧ p.length ≤ 252 := of_decide_eq_true hf
    have hl := toNat_lengthByte hp2
    have hlen : (c :: a :: ci :: p).length = (lengthByte p).toNat := by simp [hl]; omega
    have hframe : bodyFrame (c :: a :: ci :: p) = .long c a ci p := by
      simp [bodyFrame, List.ne_nil_of_length_pos hp1]
    have hrun := receiveAll_longBytes hclean.1 hw hlen (by omega)
    rw [← wire_long, hframe, ← hlen] at hrun
    have hn : (c :: a :: ci :: p).length + 6 = (wire (.long c a ci p)).length := by rw [wire_length]; rfl
    rw [hn] at hrun
    refine ⟨_, hrun, rfl, rfl, Memory.wf_writeRange _ _ hw, by simp, by simp, by simp, ?_⟩
    rintro _ _ _ _ ⟨⟩
    refine ⟨sum8_header c a ci p, sum8_header c a ci p, ?_⟩
    rw [Nat.add_comm]
    exact Memory.readRange_writeRange (c :: a :: ci :: p) hw 0

end
end

section
/-! PROOF. What every step keeps: the invariant of the state, the invariants of the receive path, the configuration and the
event stream (40_rx_framer.md R125; 44_control_ops.md R256; 60_exceptions.md R270). -/

namespace Sys2Proof.Machine

/-! ### The invariant -/

theorem bufferOk_nil (space : Space) : BufferOk [] space := ⟨⟨.nil, by simp⟩, by simp [Memory.within]⟩

theorem rxOk_reset : RxOk Rx.reset := by
  exact ⟨by simp [RxSeqOk, Rx.reset], by simp [SumOk, Rx.reset], bufferOk_nil _⟩

theorem resOk_reset : ResOk Res.reset := by
  simp only [ResOk, Res.reset]
  simpa using bufferOk_nil .resPay

theorem txOk_reset : TxOk Tx.reset := by
  simp only [TxOk, Tx.reset]
  simpa using bufferOk_nil .txPay

/-- A path that hunts with no byte taken is in a reachable form, whatever its other registers hold. -/
theorem rxOk_of_hunt {rx : Rx} (hst : rx.state = .hunt) (hcnt : rx.cnt = 0) (hbody : BufferOk rx.body .rxBody) : RxOk rx := by
  exact ⟨by simp [RxSeqOk, hst, hcnt], by simp [SumOk, hst], hbody⟩

/-- Every instruction keeps the invariant. -/
theorem exec_inv {i : Instr} {s t : State} (hinv : Inv s) (h : exec i s = .next t) : Inv t := by
  refine exec_keeps (P := Inv) (fun s a hs => hs) (fun b s t hs hb => ?_) (fun req s hs => ?_) (fun s t hs hstep => ?_)
    (fun s hs => ⟨rxOk_reset, resOk_reset, txOk_reset⟩) (fun s hs => ?_) hinv h
  · obtain ⟨hrx, hres, htx⟩ := hs
    obtain ⟨o, ho, rfl⟩ := receive_next hb
    exact ⟨rxStep_rxOk hrx ho, rxStep_resOk hrx.1 hres ho, htx⟩
  · obtain ⟨hrx, hres, htx⟩ := hs
    have honly := startTx_onlyTx req s
    exact ⟨honly.rx ▸ hrx, honly.res ▸ hres, startTx_txOk htx⟩
  · obtain ⟨hrx, hres, htx⟩ := hs
    have honly := stepTx_onlyTx hstep
    exact ⟨honly.rx ▸ hrx, honly.res ▸ hres, stepTx_txOk htx hstep⟩
  · obtain ⟨⟨-, -, hbody⟩, hres, htx⟩ := hs
    exact ⟨rxOk_of_hunt rfl rfl hbody, hres, htx⟩

/-! ### The invariants of the receive path -/

/-- Every instruction keeps the sequencing registers, the running sum and the canonical body. -/
theorem exec_keeps_receivePath {i : Instr} {s t : State} (hseq : RxSeqOk s.rx) (hsum : SumOk s.rx) (hw : s.rx.body.wf)
    (h : exec i s = .next t) : RxSeqOk t.rx ∧ SumOk t.rx ∧ t.rx.body.wf := by
  refine exec_keeps (P := fun u => RxSeqOk u.rx ∧ SumOk u.rx ∧ u.rx.body.wf) (fun s a hs => hs) (fun b s t hs hb => ?_)
    (fun req s hs => (startTx_onlyTx req s).rx ▸ hs) (fun s t hs hstep => (stepTx_onlyTx hstep).rx ▸ hs)
    (fun s hs => ⟨rxOk_reset.1, rxOk_reset.2.1, rxOk_reset.2.2.1⟩) (fun s hs => ?_) ⟨hseq, hsum, hw⟩ h
  · obtain ⟨-, hsum, hw⟩ := hs
    obtain ⟨o, ho, rfl⟩ := receive_next hb
    exact ⟨rxStep_seqOk ho, rxStep_sumOk hw hsum ho, rxStep_body_wf hw ho⟩
  · exact ⟨by simp [RxSeqOk], by simp [SumOk], hs.2.2⟩

theorem rxAccepted_of_hunt {rx : Rx} (hst : rx.state = .hunt) : rxAccepted rx = [] := by
  simp [rxAccepted, hst]

theorem rxAccepted_of_short {rx : Rx} (hst : rx.state = .short) :
    rxAccepted rx = [startShort, rx.body.read 0, rx.body.read 1, rx.cs].take rx.cnt := by
  simp [rxAccepted, hst]

/-- Before the body only the header bytes have been taken. -/
theorem rxAccepted_of_header {rx : Rx} (hst : rx.state = .long) (hcnt : rx.cnt ≤ 4) :
    rxAccepted rx = [startLong, rx.l1, rx.l2, rx.s2].take rx.cnt := by
  simp only [rxAccepted, hst, List.append_assoc]
  rw [List.take_append_of_le_length (by simpa using hcnt)]

theorem rxAccepted_of_body {rx : Rx} (hst : rx.state = .long) {k : Nat} (hcnt : rx.cnt = k + 4) (hk : k ≤ rx.l1.toNat) :
    rxAccepted rx = [startLong, rx.l1, rx.l2, rx.s2] ++ rx.body.readRange 0 k := by
  simp only [rxAccepted, hst, hcnt, Nat.add_sub_cancel, Nat.min_eq_left hk]
  exact List.take_left' (by simp)

theorem rxAccepted_at_stop {rx : Rx} (hst : rx.state = .long) (hcnt : rx.cnt = rx.l1.toNat + 5) :
    rxAccepted rx = [startLong, rx.l1, rx.l2, rx.s2] ++ rx.body.readRange 0 rx.l1.toNat ++ [rx.cs] := by
  simp only [rxAccepted, hst, hcnt, Nat.min_eq_right (show rx.l1.toNat ≤ rx.l1.toNat + 5 - 4 by omega)]
  exact List.take_of_length_le (by simp)

/-- A byte of a Short frame adds itself to the bytes taken (40_rx_framer.md R125 (d)). -/
theorem rxAccepted_shortBody {rx : Rx} (b : Byte) (res : Res) (hw : rx.body.wf) (hst : rx.state = .short) (h1 : 1 ≤ rx.cnt)
    (h3 : rx.cnt ≤ 3) : rxAccepted (rxShortBody b rx res).rx = rxAccepted rx ++ [b] := by
  rw [rxAccepted_of_short (by simpa using hst), rxAccepted_of_short hst]
  obtain hcnt | hcnt | hcnt : rx.cnt = 1 ∨ rx.cnt = 2 ∨ rx.cnt = 3 := by omega
  · simp [rxShortBody, hcnt, Memory.read_write_same _ _ _ hw]
  · simp [rxShortBody, hcnt, Memory.read_write_same _ _ _ hw]
  · simp [rxShortBody, hcnt]

/-- A byte of a Control or Long frame adds itself to the bytes taken (40_rx_framer.md R125 (d)). -/
theorem rxAccepted_longBody {rx : Rx} (b : Byte) (res : Res) (hw : rx.body.wf) (hst : rx.state = .long)
    (hcnt : rx.cnt = 1 ∨ (2 ≤ rx.cnt ∧ rx.cnt ≤ rx.l1.toNat + 4)) :
    rxAccepted (rxLongBody b rx res).rx = rxAccepted rx ++ [b] := by
  have hst' : (rxLongBody b rx res).rx.state = .long := by simpa using hst
  by_cases hheader : rx.cnt ≤ 3
  · rw [rxAccepted_of_header hst' (by simp; omega), rxAccepted_of_header hst (by omega)]
    obtain hcnt | hcnt | hcnt : rx.cnt = 1 ∨ rx.cnt = 2 ∨ rx.cnt = 3 := by omega
    all_goals simp [rxLongBody, hcnt]
  obtain ⟨k, hk⟩ : ∃ k, rx.cnt = k + 4 := ⟨rx.cnt - 4, by omega⟩
  rw [rxAccepted_of_body hst hk (by omega)]
  by_cases hbody : k < rx.l1.toNat
  · have hfield : (rxLongBody b rx res).rx = { rx with body := rx.body.write k b, sum := rx.sum + b, cnt := k + 1 + 4 } := by
      simp [rxLongBody, hk, show k + 4 ≤ rx.l1.toNat + 3 by omega]
    have hnext := rxAccepted_of_body (rx := { rx with body := rx.body.write k b, sum := rx.sum + b, cnt := k + 1 + 4 }) hst
      (k := k + 1) rfl hbody
    rw [hfield, hnext, readRange_write_next hw]
    simp
  · obtain rfl : k = rx.l1.toNat := by omega
    have hfield : (rxLongBody b rx res).rx = { rx with cs := b, cnt := rx.l1.toNat + 5 } := by
      simp [rxLongBody, hk]
    exact hfield ▸ rxAccepted_at_stop (rx := { rx with cs := b, cnt := rx.l1.toNat + 5 }) hst rfl

/-- A byte without a verdict adds itself to the bytes taken (40_rx_framer.md R125 (d)). -/
theorem rxAccepted_rxStep {b : Byte} {rx : Rx} {res : Res} {o : RxOut} (hw : rx.body.wf) (h : rxStep b rx res = some o)
    (hopen : o.rx.state ≠ .hunt) : rxAccepted o.rx = rxAccepted rx ++ [b] := by
  rcases rxStep_cases h with ⟨hst, rfl⟩ | ⟨hst, h1, h3, rfl⟩ | ⟨hst, hcnt, rfl⟩ | ⟨hst, hcnt, rfl⟩ | ⟨hst, h2, hcnt, rfl⟩
  · rw [rxAccepted_of_hunt hst]
    simp only [rxHunt] at hopen ⊢
    split_ifs at hopen ⊢ with hack hshort hlong
    · exact absurd rfl hopen
    · simp [rxStart, rxAccepted, hshort]
    · simp [rxStart, rxAccepted, hlong]
    · exact absurd rfl hopen
  · exact rxAccepted_shortBody b res hw hst h1 h3
  · simp only [rxShortStop] at hopen
    split_ifs at hopen <;> exact absurd rfl hopen
  · exact rxAccepted_longBody b res hw hst hcnt
  · simp only [rxLongStop] at hopen
    split_ifs at hopen <;> exact absurd rfl hopen

/-! ### What only grows -/

/-- From `s` to `t` the configuration stayed and the events and the answers only grew. -/
def Grows (s t : State) : Prop :=
  t.cfg = s.cfg ∧ (∃ es, t.events = s.events ++ es) ∧ ∃ as, t.answers = s.answers ++ as

theorem Grows.trans {s u t : State} (h : Grows s u) (h' : Grows u t) : Grows s t := by
  obtain ⟨hcfg, ⟨es, hes⟩, as, has⟩ := h
  obtain ⟨hcfg', ⟨es', hes'⟩, as', has'⟩ := h'
  exact ⟨hcfg'.trans hcfg, ⟨es ++ es', by rw [hes', hes, List.append_assoc]⟩, as ++ as', by rw [has', has, List.append_assoc]⟩

theorem Grows.of_same {s t : State} (hcfg : t.cfg = s.cfg) (hev : t.events = s.events) (hans : t.answers = s.answers) :
    Grows s t :=
  ⟨hcfg, ⟨[], by simp [hev]⟩, [], by simp [hans]⟩

theorem OnlyRx.grows {s t : State} (h : OnlyRx s t) : Grows s t :=
  have ⟨es, hes, _⟩ := h.events
  ⟨h.cfg, ⟨es, hes⟩, [], by simp [h.answers]⟩

theorem OnlyTx.grows {s t : State} (h : OnlyTx s t) : Grows s t :=
  have ⟨es, hes, _⟩ := h.events
  ⟨h.cfg, ⟨es, hes⟩, [], by simp [h.answers]⟩

theorem answer_grows (s : State) (a : Answer) : Grows s (answer s a) := ⟨rfl, ⟨[], by simp⟩, [a], rfl⟩

theorem exec_grows {i : Instr} {s t : State} (h : exec i s = .next t) : Grows s t := by
  refine exec_keeps (P := Grows s) (fun u a hu => hu.trans (answer_grows u a)) (fun b u v hu hb => ?_)
    (fun req u hu => hu.trans (startTx_onlyTx req u).grows) (fun u v hu hstep => hu.trans (stepTx_onlyTx hstep).grows)
    (fun u hu => hu.trans (.of_same rfl rfl rfl)) (fun u hu => hu.trans (.of_same rfl rfl rfl)) (.of_same rfl rfl rfl) h
  exact hu.trans ((OnlyRx.refl u).receive hb).grows

/-! ### A channel with nothing to deliver -/

/-- From `s` to `t` the inputs stayed and no event of the receive path was added. -/
def Quiet (s t : State) : Prop :=
  t.inputs = s.inputs ∧ ∃ es, t.events = s.events ++ es ∧ ∀ e ∈ es, e.fromRx = false

theorem Quiet.of_same {s t : State} (hin : t.inputs = s.inputs) (hev : t.events = s.events) : Quiet s t :=
  ⟨hin, [], by simp [hev]⟩

theorem OnlyTx.quiet {s t : State} (h : OnlyTx s t) : Quiet s t := ⟨h.inputs, h.events⟩

/-- An instruction that receives delivers a byte, unless it feeds none. -/
theorem eq_feed_nil_of_delivered {i : Instr} (hi : i.receives = true) (h : (Input.op i).delivered = []) : i = .feed [] := by
  cases i
  case feed bs => exact congrArg _ h
  case rxByte => cases h
  case frameAck | frameShort | frameControl | frameLong | rxHuntAck | rxHuntStartShort | rxHuntStartLong | rxHuntOther
      | rxShortBody | rxShortStop | rxLongBody | rxLongStop => simp [Input.delivered, encode, wire] at h
  all_goals cases hi

theorem exec_quiet {i : Instr} {s t : State} (hi : i.receives = true → i = .feed []) (h : exec i s = .next t) : Quiet s t := by
  rcases instr_kinds i with hrx | hask | htx | rfl | rfl
  · obtain rfl := hi hrx
    cases h
    exact .of_same rfl rfl
  · obtain ⟨a, rfl⟩ := exec_of_asks hask h
    exact .of_same rfl rfl
  · rcases exec_of_transmits htx h with honly | ⟨req, u, a, -, honly, rfl⟩
    · exact honly.quiet
    · exact honly.quiet
  · cases h
    exact .of_same rfl rfl
  · cases h
    exact .of_same rfl rfl

/-- What a receiving instruction encodes to is at the channel or a frame. -/
theorem receives_of_encode {i : Instr} {port : Port} {w : List Byte} (h : encode i = some (port, w)) (hi : i.receives = true) :
    port = .channel ∨ port = .frame := by
  cases i
  case frameAck | frameShort | frameControl | frameLong =>
    cases h
    exact .inr rfl
  case rxHuntAck | rxHuntStartShort | rxHuntStartLong | rxHuntOther | rxShortBody | rxShortStop | rxLongBody | rxLongStop =>
    cases h
    exact .inl rfl
  case rxByte | feed => cases h
  all_goals cases hi

/-- An input that delivers no byte runs an instruction that receives none, and leaves no input that delivers one. -/
theorem fetch_of_delivered_nil {s : State} {input : Input} {i : Instr} {more : List Input} (hin : input.delivered = [])
    (h : fetch s input = .ok (i, more)) : (i.receives = true → i = .feed []) ∧ ∀ x ∈ more, x.delivered = [] := by
  cases input with
  | op j =>
    simp only [fetch] at h
    split_ifs at h
    cases h
    exact ⟨fun hi => eq_feed_nil_of_delivered hi hin, by simp⟩
  | coded port bytes =>
    by_cases hport : port = .channel ∨ port = .frame
    · obtain rfl : bytes = [] := by rcases hport with rfl | rfl <;> exact hin
      rcases hport with rfl | rfl
      · cases h
      · cases h
        exact ⟨fun _ => rfl, by simp⟩
    · simp only [fetch] at h
      split at h
      next j rest hdec =>
        cases h
        obtain ⟨-, -, w, hencode, -⟩ := whatTheDecoderReadsReencodes _ _ _ _ _ hdec
        refine ⟨fun hi => absurd (receives_of_encode hencode hi) hport, fun x hx => ?_⟩
        obtain ⟨-, rfl⟩ : rest ≠ [] ∧ x = .coded port rest := by simpa [leftover] using hx
        cases port <;> simp_all [Input.delivered]
      next =>
        rw [if_neg fun hframe => hport (.inr hframe)] at h
        cases h

end Sys2Proof.Machine

section

open Sys2Proof Sys2Proof.Machine

/-- Settles O26: every instruction keeps the invariant, and taking an input touches none of it. -/
theorem everyStepKeepsTheInvariant : Obligations.EveryStepKeepsTheInvariant := by
  unfold Obligations.EveryStepKeepsTheInvariant
  intro s t hinv h
  rcases step_next h with ⟨-, rfl⟩ | ⟨input, later, i, more, -, -, hexec⟩
  · exact hinv
  · exact exec_inv (s := { s with inputs := more ++ later }) hinv hexec

/-- Settles O27: the reset values meet each premise. -/
theorem resetMeetsTheLaunchPremises : Obligations.ResetMeetsTheLaunchPremises := by
  unfold Obligations.ResetMeetsTheLaunchPremises
  exact ⟨⟨rfl, rfl⟩, ⟨rfl, rfl⟩, rfl, by simp [ChannelEmpty, State.reset], ⟨rxOk_reset, resOk_reset, txOk_reset⟩, by decide⟩

/-- Settles O28: (a) to (c) kept by every instruction, (d) by the cases of the receive step. -/
theorem receivePathInvariants : Obligations.ReceivePathInvariants := by
  unfold Obligations.ReceivePathInvariants
  refine ⟨fun i s t hseq hsum hw h => ?_, fun s hst => rxAccepted_of_hunt hst, fun s t b _ hw h hopen => ?_⟩
  · obtain ⟨hseq', hsum', -⟩ := exec_keeps_receivePath hseq hsum hw h
    exact ⟨hseq', hsum'⟩
  · obtain ⟨o, ho, rfl⟩ := receive_next h
    exact rxAccepted_rxStep hw ho hopen

/-- Settles O30: every instruction only adds to the lists; what delivers no byte runs no instruction that receives one. -/
theorem configurationIsFixedAndEventsAreKept : Obligations.ConfigurationIsFixedAndEventsAreKept := by
  unfold Obligations.ConfigurationIsFixedAndEventsAreKept
  refine ⟨fun s t h => ?_, fun s t hempty h => ?_⟩
  · rcases step_next h with ⟨-, rfl⟩ | ⟨input, later, i, more, -, -, hexec⟩
    · exact Grows.of_same rfl rfl rfl
    · exact exec_grows (s := { s with inputs := more ++ later }) hexec
  · rcases step_next h with ⟨-, rfl⟩ | ⟨input, later, i, more, hinputs, hfetch, hexec⟩
    · exact ⟨hempty, [], by simp⟩
    · have hnil (x : Input) (hx : x ∈ input :: later) : x.delivered = [] := hempty x (hinputs ▸ hx)
      obtain ⟨hi, hmore⟩ := fetch_of_delivered_nil (hnil input (by simp)) hfetch
      obtain ⟨hin, hev⟩ := exec_quiet (s := { s with inputs := more ++ later }) hi hexec
      refine ⟨fun x hx => ?_, hev⟩
      rw [hin] at hx
      rcases List.mem_append.mp hx with hx | hx
      · exact hmore x hx
      · exact hnil x (by simp [hx])

end
end

section
/-! PROOF. Sending a frame: the image while it is sent, and the bytes `send` and `encode` emit (41_tx_encoder.md R151, R154, R156,
R158; 30_encoding.md R102). -/

namespace Sys2Proof.Machine

/-! ### The descriptor while a frame is sent -/

/-- The descriptor and the length of the frame are the same (41_tx_encoder.md R154). -/
structure SameFrame (tx tx' : Tx) : Prop where
  kind : tx'.kind = tx.kind
  c : tx'.c = tx.c
  a : tx'.a = tx.a
  ci : tx'.ci = tx.ci
  plen : tx'.plen = tx.plen
  pay : tx'.pay = tx.pay
  len : tx'.len = tx.len

theorem SameFrame.refl (tx : Tx) : SameFrame tx tx := ⟨rfl, rfl, rfl, rfl, rfl, rfl, rfl⟩

theorem SameFrame.trans {tx tx' tx'' : Tx} (h : SameFrame tx tx') (h' : SameFrame tx' tx'') : SameFrame tx tx'' :=
  ⟨h'.kind.trans h.kind, h'.c.trans h.c, h'.a.trans h.a, h'.ci.trans h.ci, h'.plen.trans h.plen, h'.pay.trans h.pay,
    h'.len.trans h.len⟩

theorem SameFrame.image {tx tx' : Tx} (h : SameFrame tx tx') : txImage tx' = txImage tx := by
  simp only [txImage, h.kind, h.c, h.a, h.ci, h.plen, h.pay]

theorem advanceTx_sameFrame (b free : Byte) (tx : Tx) : SameFrame tx (advanceTx b free tx).1 := by
  simp only [advanceTx]
  split_ifs <;> exact ⟨rfl, rfl, rfl, rfl, rfl, rfl, rfl⟩

theorem stepTx_sameFrame {s t : State} (h : stepTx s = .next t) : SameFrame s.tx t.tx := by
  rcases stepTx_next h with ⟨-, rfl⟩ | ⟨b, -, -, rfl⟩
  · exact .refl _
  · exact advanceTx_sameFrame b _ _

theorem startTx_sameFrame {s : State} (req : TxReq) (hs : s.tx.state = .sending) : SameFrame s.tx (startTx req s).tx := by
  rw [startTx_of_sending req hs]
  exact ⟨rfl, rfl, rfl, rfl, rfl, rfl, rfl⟩

theorem sendFrame_sameFrame {s t : State} {req : TxReq} (hs : s.tx.state = .sending) (h : sendFrame req s = .next t) :
    SameFrame s.tx t.tx :=
  stepTxTimes_keeps (P := fun u => SameFrame s.tx u.tx) (fun _ _ hu hstep => hu.trans (stepTx_sameFrame hstep)) _
    (startTx_sameFrame req hs) h

/-- In `SENDING` only `RESET` changes the descriptor (41_tx_encoder.md R154). -/
theorem exec_sameFrame {i : Instr} {s t : State} (hs : s.tx.state = .sending) (hi : i ≠ .reset) (h : exec i s = .next t) :
    SameFrame s.tx t.tx := by
  rcases instr_kinds i with hrx | hask | htx | rfl | rfl
  · obtain ⟨bs, hbs⟩ := exec_of_receives hrx h
    exact (receiveAll_onlyRx hbs).tx ▸ .refl _
  · obtain ⟨a, rfl⟩ := exec_of_asks hask h
    exact .refl _
  · cases i
    case txStart req => cases h; exact startTx_sameFrame req hs
    case txStep => exact stepTx_sameFrame h
    case send req => exact sendFrame_sameFrame hs h
    case encode req =>
      obtain ⟨u, hu, rfl⟩ := exec_encode_next h
      have hsame : SameFrame s.tx u.tx := sendFrame_sameFrame hs hu
      exact hsame
    all_goals cases htx
  · exact absurd rfl hi
  · cases h
    exact .refl _

/-! ### Sending to the end -/

theorem stepTxTimes_add {m : Nat} (n : Nat) {s t : State} (h : stepTxTimes m s = .next t) :
    stepTxTimes (m + n) s = stepTxTimes n t := by
  induction m generalizing s with
  | zero =>
    cases h
    rw [Nat.zero_add]
  | succ m ih =>
    rw [Nat.add_right_comm]
    simp only [stepTxTimes] at h ⊢
    cases hstep : stepTx s with
    | next u =>
      rw [hstep] at h
      exact ih h
    | fault f =>
      rw [hstep] at h
      cases h
    | refused r =>
      rw [hstep] at h
      cases h

theorem stepTxTimes_succ {s t : State} (h : stepTx s = .next t) (n : Nat) : stepTxTimes (n + 1) s = stepTxTimes n t := by
  simp only [stepTxTimes, h]

/-- The state after the rest of the frame has been sent (41_tx_encoder.md R156). -/
def sentState (s : State) (x : Byte) (k : Nat) : State :=
  { s with
    tx := { s.tx with state := .idle, pos := 0, sum := x }
    events := s.events ++ ((txImage s.tx).drop s.tx.pos).map .txByte ++ [.txDone]
    freeCount := k }

/-- As many steps as bytes are left send them all, then `TxDone`. -/
theorem stepTxTimes_to_end (n : Nat) {s : State} (hs : s.tx.state = .sending) (hlen : s.tx.len = (txImage s.tx).length)
    (hn : s.tx.pos + n + 1 = s.tx.len) : ∃ x k, stepTxTimes (n + 1) s = .next (sentState s x k) := by
  induction n generalizing s with
  | zero =>
    have hpos : s.tx.pos < (txImage s.tx).length := by omega
    have hdrop := List.drop_eq_getElem_cons hpos
    have hstep := stepTx_of_sending hs (List.getElem?_eq_getElem hpos)
    rw [if_pos (by omega)] at hstep
    refine ⟨Config.freeTxSum s.freeCount, s.freeCount + 1, ?_⟩
    refine (stepTxTimes_succ hstep 0).trans (congrArg _ ?_)
    simp [sentState, hdrop, List.drop_eq_nil_of_le (show (txImage s.tx).length ≤ s.tx.pos + 1 by omega)]
  | succ n ih =>
    have hpos : s.tx.pos < (txImage s.tx).length := by omega
    have hdrop := List.drop_eq_getElem_cons hpos
    have hstep := stepTx_of_sending hs (List.getElem?_eq_getElem hpos)
    rw [if_neg (by omega)] at hstep
    obtain ⟨x, k, hrest⟩ := ih (s := { s with
      tx := { s.tx with pos := s.tx.pos + 1, sum := Config.freeTxSum s.freeCount }
      events := s.events ++ [.txByte (txImage s.tx)[s.tx.pos]], freeCount := s.freeCount + 1 }) hs hlen (by simp only; omega)
    refine ⟨x, k, ?_⟩
    refine (stepTxTimes_succ hstep _).trans (hrest.trans (congrArg _ ?_))
    simp only [sentState, hdrop, List.map_cons, List.append_assoc, List.cons_append, List.nil_append]
    rfl

/-- `tx_len` steps finish the frame in progress, those beyond its end doing nothing (30_encoding.md R102). -/
theorem stepTxTimes_len {s : State} (hs : s.tx.state = .sending) (hlen : s.tx.len = (txImage s.tx).length)
    (hpos : s.tx.pos < s.tx.len) : ∃ x k, stepTxTimes s.tx.len s = .next (sentState s x k) := by
  obtain ⟨n, hn⟩ : ∃ n, s.tx.pos + n + 1 = s.tx.len := ⟨s.tx.len - s.tx.pos - 1, by omega⟩
  obtain ⟨x, k, hend⟩ := stepTxTimes_to_end n hs hlen hn
  refine ⟨x, k, ?_⟩
  rw [show s.tx.len = n + 1 + s.tx.pos by omega, stepTxTimes_add _ hend]
  exact stepTxTimes_idle rfl _

theorem txBytes_map (w : List Byte) (es : List Event) : txBytes (w.map .txByte ++ es) = w ++ txBytes es := by
  induction w with
  | nil => rfl
  | cons b w ih => simp [txBytes, ih]

theorem exec_encode_of_sendFrame {req : TxReq} {s t : State} (h : sendFrame req s = .next t) :
    exec (.encode req) s = .next (answer t (.encoded (collected req s t))) := by
  simp only [exec, execEncode, h]

/-- `send` of a request that can be encoded, from `IDLE` (41_tx_encoder.md R158). -/
theorem sendFrame_of_idle {s : State} {req : TxReq} {w : List Byte} (hs : s.tx.state = .idle) (hw : s.tx.pay.wf)
    (h : encodeReq req = some w) :
    ∃ x k, sendFrame req s = .next
      (sentState { s with tx := loadTx req w (Config.freeTxSum s.freeCount) s.tx, freeCount := s.freeCount + 1 } x k) := by
  obtain ⟨hpos, -, -⟩ := encodeReq_len h
  rw [sendFrame, startTx_of_encodeReq_some hs h]
  refine stepTxTimes_len rfl ?_ hpos
  rw [txImage_load hw h]
  rfl

/-- `send` while a frame is being sent finishes that frame (log 14). -/
theorem sendFrame_of_sending {s : State} (req : TxReq) (htx : TxOk s.tx) (hs : s.tx.state = .sending) :
    ∃ x k, sendFrame req s = .next (sentState (rejectTx .txBusy s) x k) := by
  obtain ⟨-, hsending, -⟩ := htx
  obtain ⟨hpos, hlen⟩ := hsending hs
  rw [sendFrame, startTx_of_sending req hs]
  exact stepTxTimes_len hs hlen hpos

end Sys2Proof.Machine

section

open Sys2Proof Sys2Proof.Machine

/-- Settles O36: no instruction but `RESET` writes the descriptor in `SENDING`, and a request's image is read back from what it
loads. -/
theorem theImageIsConstantWhileSending : Obligations.TheImageIsConstantWhileSending := by
  unfold Obligations.TheImageIsConstantWhileSending
  refine ⟨fun i s t hs hi h => ?_, fun s t req hw hidle h hsending => ?_⟩
  · have hsame := exec_sameFrame hs hi h
    exact ⟨hsame.kind, hsame.c, hsame.a, hsame.ci, hsame.plen, hsame.pay, hsame.len, hsame.image⟩
  · obtain rfl : startTx req s = t := Host.Outcome.next.inj h
    cases hreq : encodeReq req with
    | none =>
      rw [startTx_of_encodeReq_none hidle hreq] at hsending
      exact absurd (hidle.symm.trans hsending) (by decide)
    | some w =>
      obtain ⟨-, -, hlen⟩ := encodeReq_len hreq
      rw [startTx_of_encodeReq_some hidle hreq]
      have himage := txImage_load (x := Config.freeTxSum s.freeCount) hw hreq
      refine ⟨congrArg _ himage.symm, congrArg List.length himage.symm, fun a ha => ?_⟩
      refine (read_loadTx_pay hw req w _ a).trans (if_neg fun hin => ?_)
      have := hlen hin.1
      omega

/-- Settles O37: loading the request and sending the whole image; an invalid request leaves the path idle. -/
theorem sendEmitsTheWireImage : Obligations.SendEmitsTheWireImage := by
  unfold Obligations.SendEmitsTheWireImage
  intro s req hclean hw
  refine ⟨fun w hreq => ?accepted, fun hreq => ?invalid⟩
  case accepted =>
    obtain ⟨x, k, hsend⟩ := sendFrame_of_idle hclean.1 hw hreq
    have himage := txImage_load (x := Config.freeTxSum s.freeCount) hw hreq
    have hevents : (sentState { s with tx := loadTx req w (Config.freeTxSum s.freeCount) s.tx, freeCount := s.freeCount + 1 }
        x k).events = s.events ++ w.map .txByte ++ [.txDone] := by
      simp only [sentState, himage]
      rfl
    refine ⟨_, hsend, hevents, rfl, rfl, ?_⟩
    have hcollected : collected req s (sentState
        { s with tx := loadTx req w (Config.freeTxSum s.freeCount) s.tx, freeCount := s.freeCount + 1 } x k) = .ok w := by
      simp only [collected, startTx_of_encodeReq_some hclean.1 hreq, hevents]
      simp [loadTx, txBytes_map, txBytes]
    rw [exec_encode_of_sendFrame hsend, hcollected]
    rfl
  case invalid =>
    have hsend : sendFrame req s = .next (rejectTx .invalidFrame s) := by
      rw [sendFrame, startTx_of_encodeReq_none hclean.1 hreq]
      exact stepTxTimes_idle (s := rejectTx .invalidFrame s) hclean.1 _
    refine ⟨hsend, ?_⟩
    have hcollected : collected req s (rejectTx .invalidFrame s) = .err .invalidFrame := by
      simp [collected, startTx_of_encodeReq_none hclean.1 hreq, txErrorCode]
    rw [exec_encode_of_sendFrame hsend, hcollected]
    rfl

/-- Settles O38: the rejected request leaves the frame in progress, and `tx_len` steps are enough to finish it. -/
theorem sendWhileBusyFinishesTheFrameInProgress : Obligations.SendWhileBusyFinishesTheFrameInProgress := by
  unfold Obligations.SendWhileBusyFinishesTheFrameInProgress
  intro s req htx hs
  obtain ⟨x, k, hsend⟩ := sendFrame_of_sending req htx hs
  refine ⟨_, hsend, rfl, rfl, rfl, ?_⟩
  have hcollected : collected req s (sentState (rejectTx .txBusy s) x k) = .err .txBusy := by
    simp [collected, startTx_of_sending req hs, txErrorCode]
  rw [exec_encode_of_sendFrame hsend, hcollected]
  rfl

/-- Settles O39: the image of each kind of request. -/
theorem theShapeOfAWireImage : Obligations.TheShapeOfAWireImage := by
  unfold Obligations.TheShapeOfAWireImage
  intro req w hreq
  obtain ⟨-, hmax, hpayload⟩ := encodeReq_len hreq
  have hw : w = wire (reqFrame req) := by
    simp only [encodeReq] at hreq
    split_ifs at hreq
    exact (Option.some.inj hreq).symm
  rw [reqFrame] at hw
  refine ⟨fun hk => ?_, fun hk => ?_, fun hk => ?_, fun hk => ?_⟩
  · rw [hw, hk]
    rfl
  · rw [hw, hk]
    rfl
  · rw [hk, frameOf, wire_control] at hw
    rw [hw]
    exact ⟨rfl, rfl, rfl⟩
  · have hl := toNat_lengthByte (hpayload hk)
    rw [hk, frameOf, wire_long] at hw
    have hlen : w.length = 9 + req.payload.length := by
      rw [hw, length_longBytes]
      simp
      omega
    subst hw
    refine ⟨hlen, hmax, rfl, rfl, hl, hl, ?_, ?_⟩
    · exact List.take_left' (l₁ := req.c :: req.a :: req.ci :: req.payload) (by simp; omega)
    · exact List.drop_left' (l₁ := [startLong, lengthByte req.payload, lengthByte req.payload, startLong, req.c, req.a, req.ci]
        ++ req.payload) (by simp; omega)

end
end

section
/-! PROOF. The step, the inputs the environment can offer, several instances, and the two paths side by side
(70_reset_and_hazards.md R321; 60_exceptions.md R282; 10_state.md R21; 20_memory.md R70). -/

namespace Sys2Proof.Machine

/-! ### The step -/

section

variable {s : State}

theorem step_of_no_input (h : s.inputs = []) : step s = .next s := by
  simp only [step, h]

theorem step_of_fetch_ok {input : Input} {later more : List Input} {i : Instr} (h : s.inputs = input :: later)
    (hfetch : fetch s input = .ok (i, more)) : step s = exec i { s with inputs := more ++ later } := by
  simp only [step, h, hfetch]

theorem step_of_fetch_error {input : Input} {later : List Input} {r : Refusal} (h : s.inputs = input :: later)
    (hfetch : fetch s input = .error r) : step s = .refused r := by
  simp only [step, h, hfetch]

theorem fetch_op {i : Instr} (hwf : i.wf = true) : fetch s (.op i) = .ok (i, []) := if_pos hwf

theorem fetch_op_illFormed {i : Instr} (hwf : i.wf = false) : fetch s (.op i) = .error .illFormed := by
  simp [fetch, hwf]

theorem fetch_coded {port : Port} {bytes rest : List Byte} {i : Instr}
    (h : decode (rxPos s.rx) port bytes = .ok (i, rest)) : fetch s (.coded port bytes) = .ok (i, leftover port rest) := by
  simp only [fetch, h]

/-- A burst that is no frame is received byte by byte (log 10). -/
theorem fetch_frame_error {bytes : List Byte} {e : DecodeError} (h : decode (rxPos s.rx) .frame bytes = .error e) :
    fetch s (.coded .frame bytes) = .ok (.feed bytes, []) := by
  simp only [fetch, h, if_true]

theorem fetch_undecodable {port : Port} {bytes : List Byte} {e : DecodeError} (hport : port ≠ .frame)
    (h : decode (rxPos s.rx) port bytes = .error e) : fetch s (.coded port bytes) = .error (.undecodable e) := by
  simp only [fetch, h, if_neg hport]

theorem leftover_append (port : Port) (rest : List Byte) (later : List Input) :
    leftover port rest ++ later = if rest = [] then later else .coded port rest :: later := by
  unfold leftover
  split <;> rfl

end

/-! ### Host reads -/

theorem handsBack_hostRead {s : State} {r : Reg} {a : Answer} (h : readReg s r = some a) : HandsBack (.hostRead r) s a := by
  have hexec : exec (.hostRead r) s = answerOrRefuse s (readReg s r) := rfl
  rw [HandsBack, hexec, h]
  rfl

theorem readReg_buffer {s : State} {space : Space} {addr n : Nat} (h : addr + n ≤ spaceSize space) :
    readReg s (.buffer space addr n) = some (.bytes ((List.range n).map fun k =>
      (match space with | .rxBody => s.rx.body | .resPay => s.res.pay | .txPay => s.tx.pay).read (addr + k))) := by
  simp only [readReg, memRead, if_pos h]
  cases space <;> simp only [Option.map_some, readRange_map]

/-! ### No instruction stops -/

/-- What a receiving instruction does, well-formed: it receives some bytes. -/
theorem exec_eq_receiveAll {i : Instr} (hi : i.receives = true) (hwf : i.wf = true) (s : State) :
    ∃ bs, exec i s = receiveAll bs s := by
  have oneByte {b : Byte} (h : exec i s = receive b s) : ∃ bs, exec i s = receiveAll bs s := by
    refine ⟨[b], h.trans ?_⟩
    simp only [receiveAll]
    split <;> simp_all
  cases i
  case frameAck | frameShort | frameControl | feed => exact ⟨_, rfl⟩
  case frameLong c a ci p => exact ⟨_, exec_toInstr (f := .long c a ci p) hwf s⟩
  case rxHuntAck | rxHuntStartShort | rxHuntStartLong | rxHuntOther | rxShortBody | rxShortStop | rxLongBody | rxLongStop =>
    exact oneByte (exec_classByte_eq_receive rfl s)
  case rxByte b => exact oneByte rfl
  all_goals cases hi

theorem readReg_ne_none {r : Reg} (hwf : r.wf = true) (s : State) : readReg s r ≠ none := by
  cases r
  case buffer space addr n => simp [readReg_buffer (of_decide_eq_true hwf)]
  all_goals simp [readReg]

theorem extract_ne_none {layout : Layout} (h : layout ≠ .special) (cfg : Config) (d : List Byte) :
    extract cfg layout d ≠ none := by
  cases layout
  case special => exact absurd rfl h
  all_goals simp [extract]

/-- A record item of a payload decodes to a reading (43_dif_vif_rom.md R230). -/
theorem recDecode_ne_none {cfg : Config} {p : List Byte} {r : Record} (h : recHeader cfg p r.start = some (.item (.record r))) :
    recDecode cfg p r ≠ none := by
  have hlayout : difLookup cfg (dataCode r.dif) ≠ .special := by
    rcases recHeader_cases h with ⟨hf, -⟩ | ⟨rec, hrec, -, -, -, hsp, -⟩ | ⟨it, hit, -, -, hne⟩
    · simp at hf
    · obtain rfl : r = rec := by simpa using hrec
      exact hsp
    · exact absurd (by simpa using hit.symm) (hne r)
  rw [recDecode, if_pos h, readingOf, Ne, Option.map_eq_none_iff]
  exact extract_ne_none hlayout _ _

theorem answerOrRefuse_of_ne_none {r : Option Answer} (h : r ≠ none) (s : State) : ∃ t, answerOrRefuse s r = .next t := by
  cases r with
  | none => exact absurd rfl h
  | some a => exact ⟨_, rfl⟩

/-- A question with its operand in its domain has an answer. -/
theorem exec_total_of_asks {i : Instr} {s : State} (hi : i.asks = true) (hwf : i.wf = true)
    (hrec : ∀ p r, i = .recDecode p r → recHeader s.cfg p r.start = some (.item (.record r))) : ∃ t, exec i s = .next t := by
  cases i
  case hostRead r => exact answerOrRefuse_of_ne_none (readReg_ne_none hwf s) s
  case recHeader p k =>
    have hk : k < p.length := of_decide_eq_true hwf
    have : recHeader s.cfg p k ≠ none := fun hnone => absurd (recHeader_none.mp hnone) (by omega)
    exact answerOrRefuse_of_ne_none (by simpa using this) s
  case extract layout d =>
    have hlayout : layout ≠ .special := by
      rintro rfl
      simp [Instr.wf, dataFits, dataBytesOf] at hwf
    exact answerOrRefuse_of_ne_none (by simpa using extract_ne_none hlayout s.cfg d) s
  case recDecode p r => exact answerOrRefuse_of_ne_none (by simpa using recDecode_ne_none (hrec p r rfl)) s
  case frameAck | frameShort | frameControl | frameLong | rxHuntAck | rxHuntStartShort | rxHuntStartLong | rxHuntOther
      | rxShortBody | rxShortStop | rxLongBody | rxLongStop | rxByte | txStart | txStep | reset | rxFlush | feed | encode
      | send => cases hi
  all_goals exact ⟨_, rfl⟩

theorem stepTx_total {s : State} (h : TxOk s.tx) : ∃ t, stepTx s = .next t := by
  cases hs : s.tx.state with
  | idle => exact ⟨s, stepTx_of_idle hs⟩
  | sending =>
    obtain ⟨b, hb⟩ := stepTx_some h hs
    exact ⟨_, stepTx_of_sending hs hb⟩

theorem stepTxTimes_total (n : Nat) {s : State} (h : TxOk s.tx) : ∃ t, stepTxTimes n s = .next t := by
  induction n generalizing s with
  | zero => exact ⟨s, rfl⟩
  | succ n ih =>
    obtain ⟨u, hu⟩ := stepTx_total h
    obtain ⟨t, ht⟩ := ih (stepTx_txOk h hu)
    exact ⟨t, (stepTxTimes_succ hu n).trans ht⟩

theorem exec_total_of_transmits {i : Instr} {s : State} (hi : i.transmits = true) (htx : TxOk s.tx) :
    ∃ t, exec i s = .next t := by
  cases i
  case txStart req => exact ⟨_, rfl⟩
  case txStep => exact stepTx_total htx
  case send req => exact stepTxTimes_total _ (startTx_txOk htx)
  case encode req =>
    obtain ⟨t, ht⟩ : ∃ t, sendFrame req s = .next t := stepTxTimes_total _ (startTx_txOk htx)
    exact ⟨_, exec_encode_of_sendFrame ht⟩
  all_goals cases hi

/-- A well-formed instruction takes a next state from every state of the invariant. -/
theorem exec_total {i : Instr} {s : State} (hinv : Inv s) (hwf : i.wf = true)
    (hrec : ∀ p r, i = .recDecode p r → recHeader s.cfg p r.start = some (.item (.record r))) : ∃ t, exec i s = .next t := by
  obtain ⟨⟨hseq, -, -⟩, -, htx⟩ := hinv
  rcases instr_kinds i with hrx | hask | htrans | rfl | rfl
  · obtain ⟨bs, hbs⟩ := exec_eq_receiveAll hrx hwf s
    obtain ⟨t, ht, -⟩ := receiveAll_total bs hseq
    exact ⟨t, hbs.trans ht⟩
  · exact exec_total_of_asks hask hwf hrec
  · exact exec_total_of_transmits htrans htx
  · exact ⟨_, rfl⟩
  · exact ⟨_, rfl⟩

/-- What an offered operation meets. -/
theorem wf_of_offered_op {s : State} {i : Instr} (h : offered s (.op i) = true) :
    i.wf = true ∧ ∀ p r, i = .recDecode p r → recHeader s.cfg p r.start = some (.item (.record r)) := by
  cases i
  case recDecode p r =>
    obtain ⟨hheader, hlies⟩ := Bool.and_eq_true_iff.mp h
    refine ⟨hlies, ?_⟩
    rintro _ _ ⟨⟩
    exact of_decide_eq_true hheader
  all_goals exact ⟨h, by simp⟩

/-- What is offered is fetched as an instruction whose operands are in their domain. -/
theorem fetch_of_offered {s : State} {input : Input} (h : offered s input = true) :
    ∃ i more, fetch s input = .ok (i, more) ∧ i.wf = true
      ∧ ∀ p r, i = .recDecode p r → recHeader s.cfg p r.start = some (.item (.record r)) := by
  cases input with
  | op i =>
    obtain ⟨hwf, hrec⟩ := wf_of_offered_op h
    exact ⟨i, [], fetch_op hwf, hwf, hrec⟩
  | coded port bytes =>
    cases hdec : decode (rxPos s.rx) port bytes with
    | ok out =>
      obtain ⟨i, rest⟩ := out
      obtain ⟨hwf, -, w, hencode, -⟩ := whatTheDecoderReadsReencodes _ _ _ _ _ hdec
      refine ⟨i, _, fetch_coded hdec, hwf, ?_⟩
      rintro p r rfl
      cases hencode
    | error e =>
      obtain rfl : port = .frame := by
        by_contra hport
        cases port <;> simp_all [offered]
      exact ⟨_, _, fetch_frame_error hdec, rfl, by simp⟩

/-! ### Several instances -/

theorem stepAt_next {k : Nat} {sys sys' : System} (h : stepAt k sys = .next sys') :
    (sys[k]? = none ∧ sys' = sys) ∨ ∃ s t, sys[k]? = some s ∧ step s = .next t ∧ sys' = sys.set k t := by
  unfold stepAt at h
  split at h
  next hk =>
    cases h
    exact .inl ⟨hk, rfl⟩
  next s hk =>
    split at h
    next t ht =>
      cases h
      exact .inr ⟨s, t, hk, ht, rfl⟩
    all_goals cases h

theorem stepAt_of_none {k : Nat} {sys : System} (h : sys[k]? = none) : stepAt k sys = .next sys := by
  simp only [stepAt, h]

theorem stepAt_of_step {k : Nat} {sys : System} {s t : State} (h : sys[k]? = some s) (ht : step s = .next t) :
    stepAt k sys = .next (sys.set k t) := by
  simp only [stepAt, h, ht]

/-- Stepping one element leaves every other as it was (10_state.md R21). -/
theorem getElem?_of_stepAt {k j : Nat} {sys sys' : System} (h : stepAt k sys = .next sys') (hne : j ≠ k) :
    sys'[j]? = sys[j]? := by
  rcases stepAt_next h with ⟨-, rfl⟩ | ⟨s, t, -, -, rfl⟩
  · rfl
  · exact List.getElem?_set_ne hne.symm

/-- The step of one element does not depend on what the others hold. -/
theorem stepAt_set {k j : Nat} {sys sys' : System} (hne : j ≠ k) (h : stepAt k sys = .next sys') (u : State) :
    stepAt k (sys.set j u) = .next (sys'.set j u) := by
  have hget : (sys.set j u)[k]? = sys[k]? := List.getElem?_set_ne hne
  rcases stepAt_next h with ⟨hk, rfl⟩ | ⟨s, t, hk, ht, rfl⟩
  · exact stepAt_of_none (hget.trans hk)
  · rw [stepAt_of_step (hget.trans hk) ht, List.set_comm _ _ hne]

/-! ### The two paths side by side -/

/-- A receive instruction and what it makes of the receive path, whatever stands elsewhere. -/
theorem exec_rx_effect {i : Instr} {s a : State} (hi : (∃ x, i = .rxByte x) ∨ i = .rxFlush) (h : exec i s = .next a) :
    ∃ rx res es, (∀ e ∈ es, e.fromRx = true)
      ∧ ∀ u : State, u.rx = s.rx → u.res = s.res →
          exec i u = .next { u with rx := rx, res := res, events := u.events ++ es } := by
  rcases hi with ⟨x, rfl⟩ | rfl
  · obtain ⟨o, ho, -⟩ := receive_next h
    refine ⟨o.rx, o.res, o.event.toList, rxStep_event_fromRx ho, fun u hrx hres => ?_⟩
    rw [← hrx, ← hres] at ho
    exact receive_of_rxStep ho
  · refine ⟨{ s.rx with state := .hunt, cnt := 0, sum := 0 }, s.res, [], by simp, fun u hrx hres => ?_⟩
    rw [exec_rxFlush, flushRx, ← hrx, ← hres, List.append_nil]

/-- A transmit instruction and what it makes of the transmit path, whatever stands elsewhere. -/
theorem exec_tx_effect {j : Instr} {s c : State} (hj : (∃ req, j = .txStart req) ∨ j = .txStep) (h : exec j s = .next c) :
    ∃ tx es k, (∀ e ∈ es, e.fromRx = false)
      ∧ ∀ u : State, u.tx = s.tx → u.freeCount = s.freeCount →
          exec j u = .next { u with tx := tx, events := u.events ++ es, freeCount := k } := by
  rcases hj with ⟨req, rfl⟩ | rfl
  · have hexec (u : State) : exec (.txStart req) u = .next (startTx req u) := rfl
    cases hs : s.tx.state with
    | sending =>
      refine ⟨{ s.tx with code := .txBusy }, [.txRejected .txBusy], s.freeCount, by simp [Event.fromRx], fun u htx hk => ?_⟩
      rw [hexec, startTx_of_sending req (htx ▸ hs), ← htx, ← hk]
      rfl
    | idle =>
      cases hreq : encodeReq req with
      | none =>
        refine ⟨{ s.tx with code := .invalidFrame }, [.txRejected .invalidFrame], s.freeCount, by simp [Event.fromRx],
          fun u htx hk => ?_⟩
        rw [hexec, startTx_of_encodeReq_none (htx ▸ hs) hreq, ← htx, ← hk]
        rfl
      | some w =>
        refine ⟨loadTx req w (Config.freeTxSum s.freeCount) s.tx, [], s.freeCount + 1, by simp, fun u htx hk => ?_⟩
        rw [hexec, startTx_of_encodeReq_some (htx ▸ hs) hreq, ← htx, ← hk, List.append_nil]
  · cases hs : s.tx.state with
    | idle =>
      refine ⟨s.tx, [], s.freeCount, by simp, fun u htx hk => ?_⟩
      rw [← htx, ← hk, List.append_nil]
      exact stepTx_of_idle (htx ▸ hs)
    | sending =>
      obtain ⟨hidle, -⟩ | ⟨b, -, hb, -⟩ := stepTx_next h
      · exact absurd (hs.symm.trans hidle) (by decide)
      · refine ⟨(advanceTx b (Config.freeTxSum s.freeCount) s.tx).1, (advanceTx b (Config.freeTxSum s.freeCount) s.tx).2,
          s.freeCount + 1, advanceTx_events_fromRx _ _ _, fun u htx hk => ?_⟩
        rw [← htx] at hb hs
        rw [← htx, ← hk]
        have hexec : exec .txStep u = stepTx u := rfl
        simp only [hexec, stepTx, hs, hb]

/-- The events of one path among those of both. -/
theorem filter_append_of_fromRx {es es' : List Event} (h : ∀ e ∈ es, e.fromRx = true) (h' : ∀ e ∈ es', e.fromRx = false) :
    (es ++ es').filter (·.fromRx) = (es' ++ es).filter (·.fromRx)
    ∧ (es ++ es').filter (!·.fromRx) = (es' ++ es).filter (!·.fromRx) := by
  have h1 : es.filter (·.fromRx) = es := List.filter_eq_self.mpr h
  have h2 : es'.filter (·.fromRx) = [] := by simpa using h'
  have h3 : es.filter (!·.fromRx) = [] := by simpa using h
  have h4 : es'.filter (!·.fromRx) = es' := by simpa using h'
  simp only [List.filter_append, h1, h2, h3, h4, List.append_nil, List.nil_append, and_self]

end Sys2Proof.Machine

section

open Sys2Proof Sys2Proof.Machine

/-- Settles O4: each kind of input as it is fetched. -/
theorem stepRunsTheNextInput : Obligations.StepRunsTheNextInput := by
  unfold Obligations.StepRunsTheNextInput
  refine fun s => ⟨step_of_no_input, fun i later h hwf => step_of_fetch_ok h (fetch_op hwf),
    fun port bytes later i rest h hdec => ?_, fun bytes later e h hdec => step_of_fetch_ok h (fetch_frame_error hdec),
    fun i later h hwf => step_of_fetch_error h (fetch_op_illFormed hwf),
    fun port bytes later e hport h hdec => step_of_fetch_error h (fetch_undecodable hport hdec)⟩
  rw [step_of_fetch_ok h (fetch_coded hdec), leftover_append]

/-- Settles O29: what is offered is fetched as a well-formed instruction, and each kind of those goes on. -/
theorem noOfferedInputStopsTheBlock : Obligations.NoOfferedInputStopsTheBlock := by
  unfold Obligations.NoOfferedInputStopsTheBlock
  intro s input later hinv hinputs hoffered
  obtain ⟨i, more, hfetch, hwf, hrec⟩ := fetch_of_offered hoffered
  obtain ⟨t, ht⟩ := exec_total (s := { s with inputs := more ++ later }) hinv hwf hrec
  exact ⟨t, (step_of_fetch_ok hinputs hfetch).trans ht⟩

/-- Settles O31: a step reads and writes its own element of the system only. -/
theorem instancesAreIndependent : Obligations.InstancesAreIndependent := by
  unfold Obligations.InstancesAreIndependent
  refine ⟨fun k j sys sys' h hne => getElem?_of_stepAt h hne, fun k sys s t hk ht => stepAt_of_step hk ht,
    fun k j sys a b hne ha hb => ?_⟩
  rcases stepAt_next ha with ⟨hk, rfl⟩ | ⟨s, t, hk, ht, rfl⟩
  · exact ⟨b, hb, stepAt_of_none ((getElem?_of_stepAt hb hne).trans hk)⟩
  · exact ⟨b.set k t, stepAt_set hne hb t, stepAt_of_step ((getElem?_of_stepAt hb hne).trans hk) ht⟩

/-- Settles O32: each instruction reads and writes its own path, so that the other order makes the same of both. -/
theorem receiveAndTransmitStepsCommute : Obligations.ReceiveAndTransmitStepsCommute := by
  unfold Obligations.ReceiveAndTransmitStepsCommute
  intro i j s a b c hi hj ha hb hc
  obtain ⟨rx, res, es, hes, hrx⟩ := exec_rx_effect hi ha
  obtain ⟨tx, es', k, hes', htx⟩ := exec_tx_effect hj hc
  obtain rfl := Host.Outcome.next.inj (ha.symm.trans (hrx s rfl rfl))
  obtain rfl := Host.Outcome.next.inj (hc.symm.trans (htx s rfl rfl))
  obtain rfl := Host.Outcome.next.inj (hb.symm.trans (htx _ rfl rfl))
  refine ⟨_, hrx _ rfl rfl, rfl, ?_, ?_⟩
  · simp only [List.append_assoc, List.filter_append s.events, (filter_append_of_fromRx hes hes').1]
  · simp only [List.append_assoc, List.filter_append s.events, (filter_append_of_fromRx hes hes').2]

/-- Settles O42: each register is read as it is, and a range of a buffer element by element. -/
theorem hostReadsReturnTheCurrentValue : Obligations.HostReadsReturnTheCurrentValue := by
  unfold Obligations.HostReadsReturnTheCurrentValue
  intro s
  refine ⟨fun q hq => ?_, fun q hq h => ?_, fun q hq h => ?_, fun q hq => ⟨fun h => ?_, fun h => ?_⟩,
    fun q hq => ⟨fun h => ?_, fun h => ?_⟩, fun addr n h => handsBack_hostRead (readReg_buffer h), fun addr n h =>
    ⟨handsBack_hostRead (readReg_buffer (space := .resPay) h), handsBack_hostRead (readReg_buffer (space := .txPay) h)⟩⟩
  · fin_cases hq <;> rfl
  · fin_cases hq
    all_goals exact ⟨handsBack_hostRead (by simp [readReg, rxStateNum, h]), handsBack_hostRead (by simp [readReg, rxBusy, h])⟩
  · fin_cases hq
    all_goals exact ⟨handsBack_hostRead (by simp [readReg, txStateNum, h]), handsBack_hostRead (by simp [readReg, txBusy, h])⟩
  all_goals
    refine handsBack_hostRead ?_
    simp only [readReg, h]
    fin_cases hq <;> rfl

end
end

section
/-! PROOF. A record header, step by step (42_record_scan.md R172 to R176). -/

namespace Sys2Proof.Machine

/-! ### Where the walk of a header stands -/

section

variable {cfg : Config} (plen i : Nat) {dif : Byte} {rest : List Byte}

theorem walkHeader_of_special (h : difLookup cfg (dataCode dif) = .special) :
    walkHeader cfg plen i dif rest = specialDif plen i dif :=
  if_pos h

section

variable (h : difLookup cfg (dataCode dif) ≠ .special)
include h

theorem walkHeader_of_pastEnd (hchain : chainAfter dif cfg.maxDife rest = .pastEnd) :
    walkHeader cfg plen i dif rest = .item (.malformed i) := by
  simp only [walkHeader, if_neg h, hchain]

theorem walkHeader_of_tooLong (hchain : chainAfter dif cfg.maxDife rest = .tooLong) :
    walkHeader cfg plen i dif rest = .item (.refused i .chainTooLong) := by
  simp only [walkHeader, if_neg h, hchain]

theorem walkHeader_of_ok {difes rest' : List Byte} (hchain : chainAfter dif cfg.maxDife rest = .ok difes rest') :
    walkHeader cfg plen i dif rest = walkVif cfg i (difLookup cfg (dataCode dif)) dif difes rest' := by
  simp only [walkHeader, if_neg h, hchain]

end

end

section

variable {cfg : Config} (i : Nat) (layout : Layout) (dif : Byte) (difes : List Byte) {vif : Byte} {rest : List Byte}

theorem walkVif_of_plainText (h : vifEntry cfg (valueCode vif) = .plainText) :
    walkVif cfg i layout dif difes (vif :: rest) = .item (.refused i .plainTextVif) :=
  if_pos h

section

variable (h : vifEntry cfg (valueCode vif) ≠ .plainText)
include h

theorem walkVif_of_pastEnd (hchain : chainAfter vif cfg.maxVife rest = .pastEnd) :
    walkVif cfg i layout dif difes (vif :: rest) = .item (.malformed i) := by
  simp only [walkVif, if_neg h, hchain]

theorem walkVif_of_tooLong (hchain : chainAfter vif cfg.maxVife rest = .tooLong) :
    walkVif cfg i layout dif difes (vif :: rest) = .item (.refused i .chainTooLong) := by
  simp only [walkVif, if_neg h, hchain]

theorem walkVif_of_ok {vifes rest' : List Byte} (hchain : chainAfter vif cfg.maxVife rest = .ok vifes rest') :
    walkVif cfg i layout dif difes (vif :: rest) =
      finishRecord i (i + (2 + difes.length + vifes.length)) layout dif difes vif vifes rest' := by
  simp only [walkVif, if_neg h, hchain]

end

end

section

variable (i j : Nat) {layout : Layout} (dif vif : Byte) (difes vifes : List Byte) {rest : List Byte}

theorem finishRecord_of_pastEnd (h : dataLen layout rest = .pastEnd) :
    finishRecord i j layout dif difes vif vifes rest = .item (.malformed i) := by
  simp only [finishRecord, h]

theorem finishRecord_of_reserved (h : dataLen layout rest = .reserved) :
    finishRecord i j layout dif difes vif vifes rest = .item (.refused i .lvarReserved) := by
  simp only [finishRecord, h]

theorem finishRecord_of_short {n : Nat} (h : dataLen layout rest = .len n) (hlen : rest.length < n) :
    finishRecord i j layout dif difes vif vifes rest = .item (.malformed i) := by
  simp only [finishRecord, h, if_pos hlen]

theorem finishRecord_of_data {data : List Byte} (h : dataFits layout data = true) :
    finishRecord i j layout dif difes vif vifes (data ++ rest) =
      .item (.record
        { start := i, stop := j + data.length, dif := dif, difes := difes, vif := vif, vifes := vifes, dataOff := j,
          dataLen := data.length }) := by
  simp [finishRecord, dataLen_of_fits rest h]

end

/-! ### Chains that do not end -/

theorem chainAfter_pastEnd {first : Byte} {max : Nat} {tail : List Byte} (hfirst : topBit first = true)
    (htail : ∀ b ∈ tail, topBit b = true) (hlen : tail.length ≤ max) : chainAfter first max tail = .pastEnd := by
  rw [chainAfter, if_pos hfirst, walkChain_pastEnd tail max htail hlen]

theorem chainAfter_tooLong {first : Byte} {max : Nat} {tail : List Byte} (hfirst : topBit first = true)
    (hlen : max < tail.length) (htail : ∀ b ∈ tail.take max, topBit b = true) : chainAfter first max tail = .tooLong := by
  rw [chainAfter, if_pos hfirst, walkChain_tooLong tail max hlen htail]

theorem chainAfter_whole {first : Byte} {max : Nat} {chain : List Byte} (hform : chainForm first chain = true)
    (hlen : chain.length ≤ max) : chainAfter first max chain = .ok chain [] := by
  simpa using chainAfter_ok chain first max [] hform hlen

/-! ### The length of the data -/

theorem dataLen_of_fixed {layout : Layout} {n : Nat} (rest : List Byte) (h : dataBytesOf layout = .fixed n) :
    dataLen layout rest = .len n := by
  simp only [dataLen, h]

theorem dataLen_varLen_nil : dataLen .varLen [] = .pastEnd := rfl

theorem dataLen_varLen_reserved {lvar : Byte} (text : List Byte) (h : 0xC0 ≤ lvar.toNat) :
    dataLen .varLen (lvar :: text) = .reserved := by
  have : ¬ lvar.toNat ≤ 0xBF := by omega
  simp [dataLen, dataBytesOf, lvarResult, this]

theorem dataLen_varLen_text {lvar : Byte} (text : List Byte) (h : lvar.toNat < 0xC0) :
    dataLen .varLen (lvar :: text) = .len (1 + lvar.toNat) := by
  have : lvar.toNat ≤ 0xBF := by omega
  simp [dataLen, dataBytesOf, lvarResult, this]

/-! ### The header as an operation -/

theorem handsBack_recHeader {s : State} (pre : List Byte) {dif : Byte} {rest : List Byte} {r : HeaderResult}
    (h : walkHeader s.cfg (pre ++ dif :: rest).length pre.length dif rest = r) :
    HandsBack (.recHeader (pre ++ dif :: rest) pre.length) s (.header r) := by
  have hheader : recHeader s.cfg (pre ++ dif :: rest) pre.length = some r := by
    rw [recHeader, List.drop_left]
    exact congrArg _ h
  have hexec : exec (.recHeader (pre ++ dif :: rest) pre.length) s
      = answerOrRefuse s ((recHeader s.cfg (pre ++ dif :: rest) pre.length).map .header) := rfl
  rw [HandsBack, hexec, hheader]
  rfl

/-- A header whose DIFE chain is whole is left to its VIF. -/
theorem handsBack_recHeader_of_walkVif {s : State} (pre : List Byte) {dif : Byte} {difes rest : List Byte} {r : HeaderResult}
    (hsp : difLookup s.cfg (dataCode dif) ≠ .special) (hform : chainForm dif difes = true)
    (hlen : difes.length ≤ s.cfg.maxDife)
    (h : walkVif s.cfg pre.length (difLookup s.cfg (dataCode dif)) dif difes rest = r) :
    HandsBack (.recHeader (pre ++ (dif :: difes ++ rest)) pre.length) s (.header r) :=
  handsBack_recHeader pre ((walkHeader_of_ok _ _ hsp (chainAfter_ok difes dif _ rest hform hlen)).trans h)

/-- A header whose chains are whole is left to its data. -/
theorem handsBack_recHeader_of_finishRecord {s : State} (pre : List Byte) {dif vif : Byte} {difes vifes rest : List Byte}
    {r : HeaderResult} (hsp : difLookup s.cfg (dataCode dif) ≠ .special) (hform : chainForm dif difes = true)
    (hlen : difes.length ≤ s.cfg.maxDife) (hpt : vifEntry s.cfg (valueCode vif) ≠ .plainText)
    (hform' : chainForm vif vifes = true) (hlen' : vifes.length ≤ s.cfg.maxVife)
    (h : finishRecord pre.length (pre.length + (2 + difes.length + vifes.length)) (difLookup s.cfg (dataCode dif)) dif difes
      vif vifes rest = r) :
    HandsBack (.recHeader (pre ++ (dif :: difes ++ (vif :: vifes ++ rest))) pre.length) s (.header r) :=
  handsBack_recHeader_of_walkVif pre hsp hform hlen
    ((walkVif_of_ok _ _ _ _ hpt (chainAfter_ok vifes vif _ rest hform' hlen')).trans h)

/-- The special DIF bytes have the data-field code 0xF (30_encoding.md R97). -/
theorem dataCode_of_low4 {b : Byte} (h : b &&& 0x0F#8 = 0x0F#8) : dataCode b = 0xF#4 := by
  revert b
  decide

theorem handsBack_headerOf {s : State} {i : Instr} {dif : Byte} {rest : List Byte} (hi : exec i s = headerOf s dif rest)
    (h : difLookup s.cfg (dataCode dif) = .special) :
    HandsBack i s (.header (specialDif (rest.length + 1) 0 dif)) := by
  rw [HandsBack, hi, headerOf, walkHeader_of_special _ _ h]
  rfl

end Sys2Proof.Machine

section

open Sys2Proof Sys2Proof.Machine

/-- Settles O43: both chains are whole and the data fits. -/
theorem aWholeRecordIsARecordItem : Obligations.AWholeRecordIsARecordItem := by
  unfold Obligations.AWholeRecordIsARecordItem
  intro s pre difes vifes data rest dif vif hsp hform hlen hpt hform' hlen' hfits
  exact handsBack_recHeader_of_finishRecord pre hsp hform hlen hpt hform' hlen' (finishRecord_of_data _ _ _ _ _ _ hfits)

/-- Settles O44: each place the walk can stop at. -/
theorem whereARecordHeaderStops : Obligations.WhereARecordHeaderStops := by
  unfold Obligations.WhereARecordHeaderStops
  refine ⟨fun s p i hi => ?outside, fun s pre dif hsp => ⟨fun tail hdif htail hlen => ?difesPastEnd,
    fun tail hdif hlen htail => ?difesTooLong, fun difes hform hlen => ⟨?noVif, fun vif rest hpt => ?plainText,
    fun vif hpt => ⟨fun rest hvif hrest hlen' => ?vifesPastEnd, fun rest hvif hlen' hrest => ?vifesTooLong,
    fun vifes hform' hlen' => ⟨fun n rest hn hrest => ?dataPastEnd, fun hvar => ⟨?noLvar, fun lvar text hlvar => ?lvarReserved,
    fun lvar text hlvar htext => ?textPastEnd⟩⟩⟩⟩⟩⟩
  case outside =>
    have hexec : exec (.recHeader p i) s = answerOrRefuse s ((recHeader s.cfg p i).map .header) := rfl
    rw [hexec, recHeader_none.mpr hi]
    rfl
  case difesPastEnd =>
    exact handsBack_recHeader pre (walkHeader_of_pastEnd _ _ hsp (chainAfter_pastEnd hdif htail hlen))
  case difesTooLong =>
    exact handsBack_recHeader pre (walkHeader_of_tooLong _ _ hsp (chainAfter_tooLong hdif hlen htail))
  case noVif => exact handsBack_recHeader pre (walkHeader_of_ok _ _ hsp (chainAfter_whole hform hlen))
  case plainText => exact handsBack_recHeader_of_walkVif pre hsp hform hlen (walkVif_of_plainText _ _ _ _ hpt)
  case vifesPastEnd =>
    exact handsBack_recHeader_of_walkVif pre hsp hform hlen
      (walkVif_of_pastEnd _ _ _ _ hpt (chainAfter_pastEnd hvif hrest hlen'))
  case vifesTooLong =>
    exact handsBack_recHeader_of_walkVif pre hsp hform hlen
      (walkVif_of_tooLong _ _ _ _ hpt (chainAfter_tooLong hvif hlen' hrest))
  case dataPastEnd =>
    exact handsBack_recHeader_of_finishRecord pre hsp hform hlen hpt hform' hlen'
      (finishRecord_of_short _ _ _ _ _ _ (dataLen_of_fixed rest hn) hrest)
  case noLvar =>
    have := handsBack_recHeader_of_finishRecord (rest := []) pre hsp hform hlen hpt hform' hlen'
      (finishRecord_of_pastEnd _ _ _ _ _ _ (hvar ▸ dataLen_varLen_nil))
    rwa [List.append_nil] at this
  case lvarReserved =>
    exact handsBack_recHeader_of_finishRecord pre hsp hform hlen hpt hform' hlen'
      (finishRecord_of_reserved _ _ _ _ _ _ (hvar ▸ dataLen_varLen_reserved text hlvar))
  case textPastEnd =>
    exact handsBack_recHeader_of_finishRecord pre hsp hform hlen hpt hform' hlen'
      (finishRecord_of_short _ _ _ _ _ _ (hvar ▸ dataLen_varLen_text text hlvar) (by simp; omega))

/-- Settles O45: the header of a special DIF, and the four rows as the header of their byte. -/
theorem specialDifBytes : Obligations.SpecialDifBytes := by
  unfold Obligations.SpecialDifBytes
  refine ⟨fun s pre tail dif hsp => ?_, fun s tail b hsp => ⟨?_, ?_, ?_, fun hwf => ?_⟩,
    fun s tail b => ⟨rfl, rfl, rfl, rfl⟩⟩
  · exact handsBack_recHeader pre (walkHeader_of_special _ _ hsp)
  · exact handsBack_headerOf (dif := 0x0F#8) rfl hsp
  · exact handsBack_headerOf (dif := 0x1F#8) rfl hsp
  · exact handsBack_headerOf (dif := 0x2F#8) rfl hsp
  · obtain ⟨hcode, htail, hmore, hfiller⟩ := of_decide_eq_true hwf
    have hitem : specialDif ([] : List Byte).length.succ 0 b = .item (.refused 0 .specialDif) := by
      simp [specialDif, htail, hmore, hfiller]
    exact hitem ▸ handsBack_headerOf (i := .difSpecialOther b) rfl (dataCode_of_low4 hcode ▸ hsp)

end
end

section
/-! PROOF. The record scan: its loop, how its items tile the payload, what it depends on, and the readings of its records
(42_record_scan.md R177, R180; 43_dif_vif_rom.md R230, R231). -/

namespace Sys2Proof.Machine

theorem handsBack_recScan {s : State} {p : List Byte} {off : Nat} {items : List Item} :
    HandsBack (.recScan p off) s (.items items) ↔ recScan s.cfg p off = items := by
  have hexec : exec (.recScan p off) s = .next (answer s (.items (recScan s.cfg p off))) := rfl
  rw [HandsBack, hexec]
  constructor
  · intro h
    have := congrArg State.answers (Host.Outcome.next.inj h)
    simpa using this
  · rintro rfl
    rfl

theorem recScan_of_badOffset {cfg : Config} {p : List Byte} {off : Nat} (h : p.length < off) :
    recScan cfg p off = [.refused off .badOffset] :=
  if_pos h

theorem recScan_of_le {cfg : Config} {p : List Byte} {off : Nat} (h : off ≤ p.length) :
    recScan cfg p off = scanFrom cfg p p.length off :=
  if_neg (Nat.not_lt.mpr h)

/-! ### The record items of a header -/

/-- A record item lies in the payload it is read from and begins where it is read (42_record_scan.md R180 (d)). -/
theorem record_of_recHeader {cfg : Config} {p : List Byte} {i : Nat} {r : Record}
    (h : recHeader cfg p i = some (.item (.record r))) :
    r.start = i ∧ i < r.stop ∧ r.lies p = true ∧ vifEntry cfg (valueCode r.vif) ≠ .plainText := by
  rcases recHeader_cases h with ⟨hf, -⟩ | ⟨rec, hrec, hstart, hstop, hlies, -, hpt⟩ | ⟨it, hit, -, -, hne⟩
  · simp at hf
  · obtain rfl : r = rec := by simpa using hrec
    exact ⟨hstart, hstop, hlies, hpt⟩
  · exact absurd (by simpa using hit.symm) (hne r)

theorem filler_of_recHeader {cfg : Config} {p : List Byte} {i : Nat} (h : recHeader cfg p i = some .filler) :
    p.getD i 0 = 0x2F ∧ i < p.length := by
  rcases recHeader_cases h with ⟨-, hbyte, hi⟩ | ⟨rec, hrec, -⟩ | ⟨it, hit, -⟩
  · exact ⟨hbyte, hi⟩
  · simp at hrec
  · simp at hit

theorem start_of_recHeader {cfg : Config} {p : List Byte} {i : Nat} {item : Item} (h : recHeader cfg p i = some (.item item))
    (hne : ∀ r, item ≠ .record r) : item.start = i ∧ i < p.length := by
  rcases recHeader_cases h with ⟨hf, -⟩ | ⟨rec, hrec, -⟩ | ⟨it, hit, hstart, hi, -⟩
  · simp at hf
  · exact absurd (by simpa using hrec) (hne rec)
  · obtain rfl : item = it := by simpa using hit
    exact ⟨hstart, hi⟩

theorem stop_le_of_lies {p : List Byte} {r : Record} (h : r.lies p = true) : r.stop ≤ p.length := by
  simp only [Record.lies, Bool.and_eq_true, decide_eq_true_eq] at h
  obtain ⟨⟨⟨-, -, -, hstop⟩, -⟩, -⟩ := h
  exact hstop

/-! ### The loop -/

/-- The items of enough turns are those the loop gives (42_record_scan.md R177): every turn goes on by at least one. -/
theorem scans_scanFrom {cfg : Config} {p : List Byte} (fuel : Nat) {i : Nat} (h : p.length ≤ fuel + i) :
    Scans cfg p i (scanFrom cfg p fuel i) := by
  induction fuel generalizing i with
  | zero => exact .finished (by omega)
  | succ fuel ih =>
    simp only [scanFrom]
    split
    next hnone => exact .finished (recHeader_none.mp hnone)
    next hfiller => exact .filler hfiller (ih (by omega))
    next r hrec =>
      obtain ⟨-, hstop, -⟩ := record_of_recHeader hrec
      exact .record hrec (ih (by omega))
    next item hne hitem => exact .stops hitem (by simpa using hne)

theorem scans_recScan {cfg : Config} {p : List Byte} {off : Nat} (h : off ≤ p.length) : Scans cfg p off (recScan cfg p off) := by
  rw [recScan_of_le h]
  exact scans_scanFrom _ (by omega)

/-- The loop gives one list of items. -/
theorem Scans.unique {cfg : Config} {p : List Byte} {i : Nat} {items other : List Item} (h : Scans cfg p i items)
    (h' : Scans cfg p i other) : other = items := by
  induction h generalizing other with
  | finished hi =>
    have hnone := recHeader_none (cfg := cfg).mpr hi
    cases h' with
    | finished => rfl
    | filler hf => simp [hnone] at hf
    | record hr => simp [hnone] at hr
    | stops hs => simp [hnone] at hs
  | filler hf _ ih =>
    cases h' with
    | finished hi => simp [recHeader_none.mpr hi] at hf
    | filler _ hrest => exact ih hrest
    | record hr => simp [hf] at hr
    | stops hs => simp [hf] at hs
  | record hr _ ih =>
    cases h' with
    | finished hi => simp [recHeader_none.mpr hi] at hr
    | filler hf => simp [hr] at hf
    | record hr' hrest =>
      obtain rfl := by simpa [hr] using hr'
      rw [ih hrest]
    | stops hs hne =>
      obtain rfl := by simpa [hr] using hs
      exact absurd rfl (hne _)
  | stops hs hne =>
    cases h' with
    | finished hi => simp [recHeader_none.mpr hi] at hs
    | filler hf => simp [hs] at hf
    | record hr =>
      obtain rfl := by simpa [hs] using hr
      exact absurd rfl (hne _)
    | stops hs' =>
      obtain rfl := by simpa [hs] using hs'
      rfl

/-! ### The tiling -/

@[simp] theorem recordsOf_record (r : Record) (items : List Item) : recordsOf (.record r :: items) = r :: recordsOf items := rfl

theorem recordsOf_of_ne_record {item : Item} (h : ∀ r, item ≠ .record r) (items : List Item) :
    recordsOf (item :: items) = recordsOf items := by
  cases item with
  | record r => exact absurd rfl (h r)
  | mfrTail | malformed | refused => rfl

/-- The items of a scan from `i` tile the payload up to `e`, where the fillers end (42_record_scan.md R180 (a) to (d)). -/
structure Tiles (cfg : Config) (p : List Byte) (i : Nat) (items : List Item) (e : Nat) : Prop where
  starts : (items.map Item.start).Pairwise (· < ·)
  from_le : ∀ item ∈ items, i ≤ item.start
  apart : (recordsOf items).Pairwise (fun a b => a.stop ≤ b.start)
  lies : ∀ r ∈ recordsOf items, i ≤ r.start ∧ r.lies p = true
  last : ∀ item ∈ items.dropLast, ∃ r, item = .record r
  le_end : i ≤ p.length → i ≤ e
  end_le : e ≤ p.length
  end_nil : items = [] → e = p.length
  end_record : ∀ r, items.getLast? = some (.record r) → e = p.length
  end_final : ∀ item, items.getLast? = some item → (∀ r, item ≠ .record r) → e = item.start
  stop_le : ∀ r ∈ recordsOf items, r.stop ≤ e
  fillers : ∀ j, i ≤ j → j < e → (∀ r ∈ recordsOf items, ¬(r.start ≤ j ∧ j < r.stop)) →
    p.getD j 0 = 0x2F ∧ recHeader cfg p j = some .filler

section

variable {cfg : Config} {p : List Byte} {i : Nat} {items : List Item}

theorem tiles_of_finished (hi : p.length ≤ i) : Tiles cfg p i [] p.length where
  starts := .nil
  from_le := by simp
  apart := .nil
  lies := by simp [recordsOf]
  last := by simp
  le_end := id
  end_le := le_rfl
  end_nil _ := rfl
  end_record := by simp
  end_final := by simp
  stop_le := by simp [recordsOf]
  fillers j hj hlt _ := by omega

/-- A filler before the items is one of the bytes they leave out. -/
theorem Tiles.cons_filler {e : Nat} (hf : recHeader cfg p i = some .filler) (h : Tiles cfg p (i + 1) items e) :
    Tiles cfg p i items e where
  starts := h.starts
  from_le item hitem := Nat.le_of_succ_le (h.from_le item hitem)
  apart := h.apart
  lies r hr := ⟨Nat.le_of_succ_le (h.lies r hr).1, (h.lies r hr).2⟩
  last := h.last
  le_end _ := Nat.le_of_succ_le (h.le_end (filler_of_recHeader hf).2)
  end_le := h.end_le
  end_nil := h.end_nil
  end_record := h.end_record
  end_final := h.end_final
  stop_le := h.stop_le
  fillers j hj hlt hout := by
    rcases Nat.eq_or_lt_of_le hj with rfl | hj
    · exact ⟨(filler_of_recHeader hf).1, hf⟩
    · exact h.fillers j hj hlt hout

/-- A record before the items takes the bytes up to its stop. -/
theorem Tiles.cons_record {e : Nat} {r : Record} (hr : recHeader cfg p i = some (.item (.record r)))
    (h : Tiles cfg p r.stop items e) : Tiles cfg p i (.record r :: items) e := by
  obtain ⟨hstart, hstop, hlies, -⟩ := record_of_recHeader hr
  have hrest (q : Record) (hq : q ∈ recordsOf items) : r.stop ≤ q.start := (h.lies q hq).1
  have hend : r.stop ≤ e := h.le_end (stop_le_of_lies hlies)
  refine ⟨?_, ?_, ?_, ?_, ?_, fun _ => by omega, h.end_le, by simp, ?_, ?_, ?_, ?_⟩
  · refine List.pairwise_cons.mpr ⟨fun x hx => ?_, h.starts⟩
    obtain ⟨item, hitem, rfl⟩ := List.mem_map.mp hx
    have := h.from_le item hitem
    show r.start < item.start
    omega
  · intro item hitem
    rcases List.mem_cons.mp hitem with rfl | hitem
    · exact hstart.ge
    · have := h.from_le item hitem
      omega
  · exact List.pairwise_cons.mpr ⟨hrest, h.apart⟩
  · intro q hq
    rcases List.mem_cons.mp hq with rfl | hq
    · exact ⟨hstart.ge, hlies⟩
    · exact ⟨by have := hrest q hq; omega, (h.lies q hq).2⟩
  · intro item hitem
    cases items with
    | nil => simp at hitem
    | cons next items =>
      rcases List.mem_cons.mp hitem with rfl | hitem
      · exact ⟨r, rfl⟩
      · exact h.last item hitem
  · intro q hq
    cases items with
    | nil => exact h.end_nil rfl
    | cons next items => exact h.end_record q (by simpa using hq)
  · intro item hitem hne
    cases items with
    | nil => exact absurd (by simpa using hitem.symm) (hne r)
    | cons next items => exact h.end_final item (by simpa using hitem) hne
  · intro q hq
    rcases List.mem_cons.mp hq with rfl | hq
    · exact hend
    · exact h.stop_le q hq
  · intro j hj hlt hout
    have hself := hout r (by simp)
    exact h.fillers j (by omega) hlt fun q hq => hout q (by simp [hq])

/-- A final item that is no record ends the tiling where it begins. -/
theorem tiles_of_final {item : Item} (hitem : recHeader cfg p i = some (.item item)) (hne : ∀ r, item ≠ .record r) :
    Tiles cfg p i [item] i := by
  obtain ⟨hstart, hi⟩ := start_of_recHeader hitem hne
  have hnone : recordsOf [item] = [] := recordsOf_of_ne_record hne []
  refine ⟨by simp, by simp [hstart], by simp [hnone], by simp [hnone], by simp, fun _ => le_rfl, hi.le, by simp, ?_, ?_,
    by simp [hnone], fun j hj hlt => by omega⟩
  · intro r hr
    exact absurd (by simpa using hr) (hne r)
  · intro it hit _
    obtain rfl : item = it := by simpa using hit
    exact hstart.symm

theorem Scans.tiles (h : Scans cfg p i items) : ∃ e, Tiles cfg p i items e := by
  induction h with
  | finished hi => exact ⟨_, tiles_of_finished hi⟩
  | filler hf _ ih =>
    obtain ⟨e, he⟩ := ih
    exact ⟨e, he.cons_filler hf⟩
  | record hr _ ih =>
    obtain ⟨e, he⟩ := ih
    exact ⟨e, he.cons_record hr⟩
  | stops hitem hne => exact ⟨_, tiles_of_final hitem hne⟩

end

/-! ### What a scan depends on -/

/-- Two configurations agree on what a scan reads of them (42_record_scan.md R180 (e)). -/
structure SameScanConfig (cfg cfg' : Config) : Prop where
  difRom : cfg.difRom = cfg'.difRom
  plainText : ∀ code, vifEntry cfg code = .plainText ↔ vifEntry cfg' code = .plainText
  maxDife : cfg.maxDife = cfg'.maxDife
  maxVife : cfg.maxVife = cfg'.maxVife

section

variable {cfg cfg' : Config} (h : SameScanConfig cfg cfg')
include h

theorem walkVif_congr (i : Nat) (layout : Layout) (dif : Byte) (difes rest : List Byte) :
    walkVif cfg i layout dif difes rest = walkVif cfg' i layout dif difes rest := by
  cases rest with
  | nil => rfl
  | cons vif rest => simp only [walkVif, h.plainText, h.maxVife]

theorem walkHeader_congr (plen i : Nat) (dif : Byte) (rest : List Byte) :
    walkHeader cfg plen i dif rest = walkHeader cfg' plen i dif rest := by
  have hlayout : difLookup cfg (dataCode dif) = difLookup cfg' (dataCode dif) := by simp only [difLookup, h.difRom]
  simp only [walkHeader, hlayout, h.maxDife, walkVif_congr h]

/-- The header at an index from which the payloads agree. -/
theorem recHeader_congr {p p' : List Byte} (hlen : p.length = p'.length) {i : Nat} (hdrop : p.drop i = p'.drop i) :
    recHeader cfg p i = recHeader cfg' p' i := by
  simp only [recHeader, hdrop, hlen, walkHeader_congr h]

/-- A scan from an offset from which the payloads agree (42_record_scan.md R180 (e)). -/
theorem scanFrom_congr {p p' : List Byte} (hlen : p.length = p'.length) {off : Nat} (hdrop : p.drop off = p'.drop off)
    (fuel : Nat) {i : Nat} (hi : off ≤ i) : scanFrom cfg p fuel i = scanFrom cfg' p' fuel i := by
  induction fuel generalizing i with
  | zero => rfl
  | succ fuel ih =>
    have hdrop' : p.drop i = p'.drop i := by
      obtain ⟨k, rfl⟩ : ∃ k, i = off + k := ⟨i - off, by omega⟩
      rw [← List.drop_drop, hdrop, List.drop_drop]
    simp only [scanFrom, ← recHeader_congr h hlen hdrop']
    split
    next => rfl
    next => exact ih (by omega)
    next r hrec =>
      obtain ⟨-, hstop, -⟩ := record_of_recHeader hrec
      rw [ih (by omega)]
    next => rfl

end

/-! ### Readings -/

theorem vifLookup_ne_refusedPlainText {cfg : Config} {vif : Byte} (h : vifEntry cfg (valueCode vif) ≠ .plainText)
    (vifes : List Byte) : vifLookup cfg vif vifes ≠ .refusedPlainText := by
  have hresult (reason : UnknownReason) : vifeResult cfg vif vifes reason ≠ .refusedPlainText := by
    unfold vifeResult
    split <;> simp
  unfold vifLookup
  split
  next => split <;> simp [hresult]
  next => split <;> simp [hresult]
  next => simp
  next => simp
  next => simp
  next hpt => exact absurd hpt h

/-- What the readings of a list of items are when its records decode and only the last item may be no record
(43_dif_vif_rom.md R231). -/
structure Reads (cfg : Config) (p : List Byte) (items : List Item) : Prop where
  headers : ∀ r ∈ recordsOf items, recHeader cfg p r.start = some (.item (.record r))
  readings : (readItems cfg p items).1 = (recordsOf items).filterMap (recDecode cfg p)
  length : (readItems cfg p items).1.length = (recordsOf items).length
  final : ∀ item, (readItems cfg p items).2 = some item ↔ items.getLast? = some item ∧ ∀ r, item ≠ .record r

section

variable {cfg : Config} {p : List Byte}

theorem readItems_of_ne_record {item : Item} (h : ∀ r, item ≠ .record r) (items : List Item) :
    readItems cfg p (item :: items) = ([], some item) := by
  cases item with
  | record r => exact absurd rfl (h r)
  | mfrTail | malformed | refused => rfl

theorem reads_nil : Reads cfg p [] := ⟨by simp [recordsOf], rfl, rfl, by simp [readItems]⟩

theorem reads_of_final {item : Item} (h : ∀ r, item ≠ .record r) : Reads cfg p [item] := by
  have hnone : recordsOf [item] = [] := recordsOf_of_ne_record h []
  have hread := readItems_of_ne_record (cfg := cfg) (p := p) h []
  refine ⟨by simp [hnone], by simp [hread, hnone], by simp [hread, hnone], fun it => ?_⟩
  simp only [hread, List.getLast?_singleton]
  exact ⟨fun hit => ⟨hit, by obtain rfl := Option.some.inj hit; exact h⟩, fun hit => hit.1⟩

theorem Reads.cons_record {r : Record} {items : List Item} (hr : recHeader cfg p r.start = some (.item (.record r)))
    (h : Reads cfg p items) : Reads cfg p (.record r :: items) := by
  obtain ⟨reading, hreading⟩ := Option.ne_none_iff_exists'.mp (recDecode_ne_none hr)
  refine ⟨?_, ?_, ?_, fun item => ?_⟩
  · simpa using ⟨hr, h.headers⟩
  · simp [readItems, hreading, h.readings]
  · simp [readItems, hreading, h.length]
  · refine (h.final item).trans ?_
    cases items with
    | nil =>
      simp only [List.getLast?_nil, List.getLast?_singleton, reduceCtorEq, false_and, false_iff, not_and]
      rintro hlast hne
      exact hne r (Option.some.inj hlast).symm
    | cons next items => simp

theorem Scans.reads {i : Nat} {items : List Item} (h : Scans cfg p i items) : Reads cfg p items := by
  induction h with
  | finished => exact reads_nil
  | filler _ _ ih => exact ih
  | record hr _ ih =>
    obtain ⟨hstart, -⟩ := record_of_recHeader hr
    exact ih.cons_record (hstart ▸ hr)
  | stops _ hne => exact reads_of_final hne

theorem reads_recScan (off : Nat) : Reads cfg p (recScan cfg p off) := by
  rcases Nat.lt_or_ge p.length off with hbad | hle
  · rw [recScan_of_badOffset hbad]
    exact reads_of_final (by simp)
  · exact (scans_recScan hle).reads

end

end Sys2Proof.Machine

section

open Sys2Proof Sys2Proof.Machine

/-- Settles O46: enough turns give a list of the loop, and the loop gives one. -/
theorem recScanIsItsLoop : Obligations.RecScanIsItsLoop := by
  unfold Obligations.RecScanIsItsLoop
  refine fun s p off => ⟨fun h => handsBack_recScan.mpr (recScan_of_badOffset h), fun h => ?_⟩
  exact ⟨_, scans_recScan h, handsBack_recScan.mpr rfl, fun other hother => (scans_recScan h).unique hother⟩

/-- Settles O47: an induction over the turns of the loop. -/
theorem scanItemsTileThePayload : Obligations.ScanItemsTileThePayload := by
  unfold Obligations.ScanItemsTileThePayload
  intro s p off hoff
  obtain ⟨e, h⟩ := (scans_recScan (cfg := s.cfg) hoff).tiles
  exact ⟨_, handsBack_recScan.mpr rfl, h.starts, h.apart, h.lies, h.last, e, h.end_le, h.end_nil, h.end_record, h.end_final,
    h.stop_le, h.fillers⟩

/-- Settles O48: every header a scan reads stands at an index from which the payloads agree. -/
theorem whatAScanDependsOn : Obligations.WhatAScanDependsOn := by
  unfold Obligations.WhatAScanDependsOn
  intro s s' p p' off items items' hoff hoff' hdrop hrom hplain hdife hvife h h'
  have hlen : p.length = p'.length := by
    have := congrArg List.length hdrop
    simp only [List.length_drop] at this
    omega
  rw [← handsBack_recScan.mp h, ← handsBack_recScan.mp h', recScan_of_le hoff, recScan_of_le hoff', hlen]
  exact scanFrom_congr ⟨hrom, hplain, hdife, hvife⟩ hlen hdrop _ le_rfl

/-- Settles O49: a record's layout is never `Special` and its VIF no plain text, so that it decodes; an induction over the
turns of the loop gives the payload's readings. -/
theorem recordItemsDecodeToReadings : Obligations.RecordItemsDecodeToReadings := by
  unfold Obligations.RecordItemsDecodeToReadings
  refine ⟨fun s p r h => ⟨?_, ?_⟩, fun cfg p off => ?_⟩
  · obtain ⟨-, -, -, hpt⟩ := record_of_recHeader h
    exact vifLookup_ne_refusedPlainText hpt r.vifes
  · obtain ⟨reading, hreading⟩ := Option.ne_none_iff_exists'.mp (recDecode_ne_none h)
    have hfields := hreading
    rw [recDecode, if_pos h, readingOf, Option.map_eq_some_iff] at hfields
    obtain ⟨v, hv, rfl⟩ := hfields
    refine ⟨v, hv, ?_⟩
    have hexec : exec (.recDecode p r) s = answerOrRefuse s ((recDecode s.cfg p r).map .reading) := rfl
    rw [HandsBack, hexec, hreading]
    rfl
  · have h := reads_recScan (cfg := cfg) (p := p) off
    exact ⟨h.headers, h.readings, h.length, h.final⟩

end
end

section
/-! PROOF. The record byte rows, the DIFE accumulation, the values and the table rows (30_encoding.md R91 to R99; 43_dif_vif_rom.md
R201 to R226). -/

namespace Sys2Proof.Machine

/-! ### The record byte rows -/

/-- The fields of a byte of four fields, as numbers (30_encoding.md R91, R92). -/
theorem bits_append_fields (e s : BitVec 1) (f : BitVec 2) (d : BitVec 4) :
    e.toNat = bit (e ++ s ++ f ++ d : BitVec 8) 7 ∧ s.toNat = bit (e ++ s ++ f ++ d : BitVec 8) 6
    ∧ f.toNat = bits (e ++ s ++ f ++ d : BitVec 8) 5 4 ∧ d.toNat = bits (e ++ s ++ f ++ d : BitVec 8) 3 0 := by
  revert e s f d
  decide

/-- The fields of a byte of two fields, as numbers (30_encoding.md R93, R94). -/
theorem bits_append_code (e : BitVec 1) (c : BitVec 7) :
    e.toNat = bit (e ++ c : BitVec 8) 7 ∧ c.toNat = bits (e ++ c : BitVec 8) 6 0 := by
  revert e c
  decide

theorem dataCode_append (e s : BitVec 1) (f : BitVec 2) (d : BitVec 4) : dataCode (e ++ s ++ f ++ d : BitVec 8) = d := by
  obtain ⟨-, -, -, hd⟩ := fields_append e s f d
  exact hd

/-- The code of a VIF row with three scale bits (43_dif_vif_rom.md R211). -/
theorem valueCode_append_three (e : BitVec 1) (c : BitVec 4) (n : BitVec 3) : valueCode (e ++ c ++ n : BitVec 8) = c ++ n := by
  revert e c n
  decide

/-- The code of a VIF row with two scale bits (43_dif_vif_rom.md R211). -/
theorem valueCode_append_two (e : BitVec 1) (c : BitVec 5) (n : BitVec 2) : valueCode (e ++ c ++ n : BitVec 8) = c ++ n := by
  revert e c n
  decide

theorem valueCode_append (e : BitVec 1) (c : BitVec 7) : valueCode (e ++ c : BitVec 8) = c := by
  obtain ⟨-, hc⟩ := code_append e c
  exact hc

theorem toNat_dataCode (b : Byte) : (dataCode b).toNat = bits b 3 0 := toNat_extractLsb'_eq_bits b 3 0 (by decide)

theorem toNat_valueCode (b : Byte) : (valueCode b).toNat = bits b 6 0 := toNat_extractLsb'_eq_bits b 6 0 (by decide)

/-! ### The table rows -/

section

variable {i : Instr} {s : State}

/-- A DIF data-field row hands back the layout of the code its byte holds (30_encoding.md R96). -/
theorem exec_of_encode_difData {b : Byte} (h : encode i = some (.difData, [b])) :
    exec i s = .next (answer s (dataFieldOf s.cfg (dataCode b))) := by
  cases i <;> cases h
  all_goals
    rw [dataCode_append]
    rfl

/-- A VIF row hands back the entry of the code its byte holds (43_dif_vif_rom.md R202). -/
theorem exec_of_encode_vifCode {b : Byte} (h : encode i = some (.vifCode, [b])) :
    exec i s = .next (answer s (.entry (vifEntry s.cfg (valueCode b)))) := by
  cases i <;> cases h
  case vif00Energy.refl | vif08Energy.refl | vif10Volume.refl | vif18Mass.refl | vif28Power.refl | vif30Power.refl
      | vif38VolumeFlow.refl | vif40VolumeFlow.refl | vif48VolumeFlow.refl | vif50MassFlow.refl =>
    rw [valueCode_append_three]
    rfl
  case vif20OnTime.refl | vif24OperatingTime.refl | vif58FlowTemperature.refl | vif5CReturnTemperature.refl
      | vif60TemperatureDifference.refl | vif64ExternalTemperature.refl | vif68Pressure.refl
      | vif70AveragingDuration.refl | vif74ActualityDuration.refl =>
    rw [valueCode_append_two]
    rfl
  all_goals
    rw [valueCode_append]
    rfl

/-- A row under the default `DIF_ROM` (43_dif_vif_rom.md R201). -/
theorem handsBack_dataField_default {code : BitVec 4} {l : Layout} {n : DataBytes} (h : s.cfg.difRom = defaultDifRom)
    (hexec : exec i s = .next (answer s (dataFieldOf s.cfg code))) (hrow : dataFieldOf defaultConfig code = .dataField l n) :
    HandsBack i s (.dataField l n) := by
  have hsame : dataFieldOf s.cfg code = dataFieldOf defaultConfig code := by
    simp only [dataFieldOf, difLookup, h, defaultConfig]
  rw [HandsBack, hexec, hsame, hrow]
  rfl

/-- A row under the default `VIF_ROM` (43_dif_vif_rom.md R211). -/
theorem handsBack_entry_default {code : BitVec 7} {entry : VifEntry} (h : s.cfg.vifRom = defaultVifRom)
    (hexec : exec i s = .next (answer s (.entry (vifEntry s.cfg code)))) (hrow : vifEntry defaultConfig code = entry) :
    HandsBack i s (.entry entry) := by
  have hsame : vifEntry s.cfg code = vifEntry defaultConfig code := by simp only [vifEntry, h, defaultConfig]
  rw [HandsBack, hexec, hsame, hrow]
  rfl

end

/-! ### The DIFE accumulation -/

/-- The sum `DIFE_ACC` forms of one field of the chain, from DIFE number `k` on (30_encoding.md R95). -/
def shiftedSum (field : Byte → Nat) (shift : Nat → Nat) (k : Nat) (difes : List Byte) : Nat :=
  ((List.range difes.length).map fun j => field (difes.getD j 0) <<< shift (k + j)).sum

theorem shiftedSum_cons (field : Byte → Nat) (shift : Nat → Nat) (k : Nat) (b : Byte) (bs : List Byte) :
    shiftedSum field shift k (b :: bs) = field b <<< shift k + shiftedSum field shift (k + 1) bs := by
  simp [shiftedSum, List.range_succ_eq_map, Function.comp_def, Nat.add_assoc, Nat.add_comm 1]

/-- The loop adds the shifted fields to what it has (43_dif_vif_rom.md R204). -/
theorem difeAccFrom_eq (k : Nat) (acc : Acc) (difes : List Byte) :
    difeAccFrom k acc difes =
      { storage := acc.storage + shiftedSum (bits · 3 0) (fun j => 1 + 4 * j) k difes
        tariff := acc.tariff + shiftedSum (bits · 5 4) (fun j => 2 * j) k difes
        subunit := acc.subunit + shiftedSum (bit · 6) id k difes } := by
  induction difes generalizing k acc with
  | nil => rfl
  | cons b bs ih => simp only [difeAccFrom, ih, shiftedSum_cons, Nat.add_assoc, id]

theorem shiftedSum_zero (field : Byte → Nat) (shift : Nat → Nat) (difes : List Byte) :
    shiftedSum field shift 0 difes = ((List.range difes.length).map fun j => field (difes.getD j 0) <<< shift j).sum := by
  simp only [shiftedSum, Nat.zero_add]

/-- One more field of `w` bits above `n` bits. -/
theorem add_shiftLeft_lt {a x w n : Nat} (ha : a < 2 ^ n) (hx : x < 2 ^ w) : a + x <<< n < 2 ^ (n + w) :=
  calc a + x <<< n < 2 ^ n + x * 2 ^ n := by rw [Nat.shiftLeft_eq]; exact Nat.add_lt_add_right ha _
    _ = (x + 1) * 2 ^ n := by ring
    _ ≤ 2 ^ w * 2 ^ n := Nat.mul_le_mul_right _ hx
    _ = 2 ^ (n + w) := by rw [pow_add, Nat.mul_comm]

/-- Fields of `w` bits, each above the one before, stay below the next. -/
theorem add_shiftedSum_lt {field : Byte → Nat} {shift : Nat → Nat} {w : Nat} (hfield : ∀ b, field b < 2 ^ w)
    (hshift : ∀ j, shift (j + 1) = shift j + w) {a k : Nat} {difes : List Byte} (ha : a < 2 ^ shift k) :
    a + shiftedSum field shift k difes < 2 ^ shift (k + difes.length) := by
  induction difes generalizing a k with
  | nil => simpa [shiftedSum] using ha
  | cons b bs ih =>
    have hb : a + field b <<< shift k < 2 ^ shift (k + 1) := hshift k ▸ add_shiftLeft_lt ha (hfield b)
    rw [shiftedSum_cons, ← Nat.add_assoc, List.length_cons, Nat.add_comm bs.length, ← Nat.add_assoc]
    exact ih hb

theorem bits_lt (b : Byte) (hi lo : Nat) : bits b hi lo < 2 ^ (hi - lo + 1) := Nat.mod_lt _ (Nat.two_pow_pos _)

theorem bit_lt (b : Byte) (i : Nat) : bit b i < 2 := Nat.mod_lt _ (by decide)

/-! ### Digits of a base, the first the lowest -/

/-- The number the digits `f` gives the bytes spell in a base, the first byte the lowest (00_scope.md R12). -/
def digitSum (base : Nat) (f : Byte → Nat) : List Byte → Nat
  | [] => 0
  | b :: bs => f b + base * digitSum base f bs

theorem leUint_eq_digitSum (d : List Byte) : leUint d = digitSum 256 BitVec.toNat d := by
  induction d with
  | nil => rfl
  | cons b bs ih => simp only [leUint, digitSum, ih]

theorem bcdValue_eq_digitSum (d : List Byte) : bcdValue d = digitSum 100 (fun b => bits b 7 4 * 10 + bits b 3 0) d := by
  induction d with
  | nil => rfl
  | cons b bs ih => simp only [bcdValue, digitSum, ih]

theorem digitSum_eq_sum (base : Nat) (f : Byte → Nat) (d : List Byte) :
    digitSum base f d = ((List.range d.length).map fun j => f (d.getD j 0) * base ^ j).sum := by
  induction d with
  | nil => rfl
  | cons b bs ih =>
    rw [digitSum, ih, List.length_cons, List.range_succ_eq_map, List.map_cons, List.sum_cons, List.map_map,
      ← List.sum_map_mul_left]
    simp [Function.comp_def, pow_succ, Nat.mul_comm base, Nat.mul_assoc]

theorem digitSum_lt {base : Nat} {f : Byte → Nat} {d : List Byte} (h : ∀ b ∈ d, f b < base) : digitSum base f d < base ^ d.length := by
  induction d with
  | nil => simp [digitSum]
  | cons b bs ih =>
    have hb := h b (by simp)
    have hbs := ih fun c hc => h c (by simp [hc])
    calc digitSum base f (b :: bs) < base + base * digitSum base f bs := Nat.add_lt_add_right hb _
      _ = base * (digitSum base f bs + 1) := by ring
      _ ≤ base * base ^ bs.length := Nat.mul_le_mul_left _ hbs
      _ = base ^ (b :: bs).length := by rw [List.length_cons, pow_succ, Nat.mul_comm]

/-! ### Two's complement -/

/-- A pattern of `n + 1` bits read as two's complement (00_scope.md R12). -/
theorem sext_range {n v : Nat} (hv : v < 2 ^ (n + 1)) :
    -(2 : Int) ^ n ≤ sext (n + 1) v ∧ sext (n + 1) v < (2 : Int) ^ n ∧ sext (n + 1) v % (2 : Int) ^ (n + 1) = v := by
  have hmod : (v : Int) % 2 ^ (n + 1) = v := Int.emod_eq_of_lt (Int.natCast_nonneg v) (mod_cast hv)
  have hhalf : (2 : Int) ^ (n + 1) = 2 * 2 ^ n := by rw [pow_succ, Int.mul_comm]
  have hv' : (v : Int) < 2 ^ (n + 1) := mod_cast hv
  have hpos : (0 : Int) < 2 ^ n := by positivity
  unfold sext
  split
  next hlow =>
    have hlow' : (v : Int) < 2 ^ n := mod_cast hlow
    exact ⟨by omega, hlow', hmod⟩
  next hhigh =>
    have hhigh' : (2 : Int) ^ n ≤ v := mod_cast Nat.le_of_not_lt hhigh
    exact ⟨by omega, by omega, by rw [Int.sub_emod_right, hmod]⟩

theorem leUint_lt (d : List Byte) : leUint d < 2 ^ (8 * d.length) := by
  rw [leUint_eq_digitSum, pow_mul]
  exact digitSum_lt fun b _ => b.isLt

theorem intBytes_pos (k : IntWidth) : 0 < intBytes k := by
  cases k <;> decide

/-! ### What `EXTRACT` gives, by layout -/

section

variable {cfg : Config} {d : List Byte}

theorem extract_int {k : IntWidth} (h : isNoValue (sentinelsOf cfg (.int k)) d = false) :
    extract cfg (.int k) d = some (.num (leSint d)) := by
  simp [extract, h]

theorem extract_bcd {n : Nat} (h : isNoValue (sentinelsOf cfg (.bcd n)) d = false) :
    extract cfg (.bcd n) d = some (extractBcd d) := by
  simp [extract, h]

theorem extract_real32 (h : isNoValue (sentinelsOf cfg .real32) d = false) :
    extract cfg .real32 d = some (.real (BitVec.ofNat 32 (leUint d))) := by
  simp [extract, h]

end

theorem bcdOk_iff {b : Byte} : bcdOk b = true ↔ bits b 7 4 ≤ 9 ∧ bits b 3 0 ≤ 9 := decide_eq_true_iff

theorem extractBcd_of_decimal {d : List Byte} (h : ∀ b ∈ d, bits b 7 4 ≤ 9 ∧ bits b 3 0 ≤ 9) : extractBcd d = .num (bcdValue d) :=
  if_pos (List.all_eq_true.mpr fun b hb => bcdOk_iff.mpr (h b hb))

theorem extractBcd_of_not_decimal {d : List Byte} (h : ∃ b ∈ d, 9 < bits b 7 4 ∨ 9 < bits b 3 0) : extractBcd d = .badBcd := by
  obtain ⟨b, hb, hdigit⟩ := h
  refine if_neg fun hall => ?_
  obtain ⟨hhigh, hlow⟩ := bcdOk_iff.mp (List.all_eq_true.mp hall b hb)
  omega

/-- A byte appended below a number. -/
theorem toNat_append_byte {n : Nat} (x : BitVec n) (b : Byte) : (x ++ b).toNat = b.toNat + 256 * x.toNat := by
  rw [BitVec.toNat_append, ← Nat.shiftLeft_add_eq_or_of_lt b.isLt, Nat.shiftLeft_eq, Nat.mul_comm, Nat.add_comm]

/-- Four bytes, least significant first, are the pattern they make (43_dif_vif_rom.md R226). -/
theorem ofNat_leUint_four (b0 b1 b2 b3 : Byte) :
    BitVec.ofNat 32 (leUint [b0, b1, b2, b3]) = (b3 ++ b2 ++ b1 ++ b0 : BitVec 32) := by
  apply BitVec.eq_of_toNat_eq
  have hlt : leUint [b0, b1, b2, b3] < 2 ^ 32 := leUint_lt _
  rw [BitVec.toNat_ofNat, Nat.mod_eq_of_lt hlt, toNat_append_byte, toNat_append_byte, toNat_append_byte]
  rfl

end Sys2Proof.Machine

section

open Sys2Proof Sys2Proof.Machine

/-- Settles O52: each row's fields are the bits its encoding puts them at. -/
theorem recordByteRowsHandBackTheirFields : Obligations.RecordByteRowsHandBackTheirFields := by
  unfold Obligations.RecordByteRowsHandBackTheirFields
  intro s b
  refine ⟨fun e g f d h => ?_, fun e u t n h => ?_, fun e c h => ?_, fun e c h => ?_, rfl, fun e g d h => ?_,
    fun e g d h => ?_, fun e g d h => ?_, fun e g d h => ?_⟩ <;> cases h
  case refine_1 =>
    obtain ⟨he, hg, hf, hd⟩ := bits_append_fields e g f d
    exact ⟨difFieldsOf e g f d, rfl, he, hg, hd, hf ▸ mem_functionCodes f⟩
  case refine_2 => exact ⟨_, rfl, bits_append_fields e u t n⟩
  case refine_3 => exact ⟨_, rfl, bits_append_code e c⟩
  case refine_4 => exact ⟨_, rfl, bits_append_code e c⟩
  all_goals
    obtain ⟨-, -, hf, -⟩ := bits_append_fields e g _ d
    exact ⟨rfl, hf.symm⟩

/-- Settles O53: the loop adds the shifted fields, and each field stays below the next. -/
theorem difeAccIsTheClosedSum : Obligations.DifeAccIsTheClosedSum := by
  unfold Obligations.DifeAccIsTheClosedSum
  intro s dif difes
  refine ⟨difeAcc dif difes, rfl, ?_⟩
  simp only [difeAcc, difeAccFrom_eq, Nat.zero_add]
  refine ⟨by rw [shiftedSum_zero], by rw [shiftedSum_zero], by rw [shiftedSum_zero]; rfl, fun hlen => ⟨?_, ?_, ?_⟩⟩
  · exact (add_shiftedSum_lt (w := 4) (bits_lt · 3 0) (fun j => by omega) (bit_lt dif 6)).trans_le
      (Nat.pow_le_pow_right (by decide) (by omega))
  · rw [← Nat.zero_add (shiftedSum _ _ _ _)]
    exact (add_shiftedSum_lt (w := 2) (bits_lt · 5 4) (fun j => by omega) Nat.one_pos).trans_le
      (Nat.pow_le_pow_right (by decide) (by omega))
  · rw [← Nat.zero_add (shiftedSum _ _ _ _)]
    exact (add_shiftedSum_lt (shift := id) (w := 1) (bit_lt · 6) (fun j => rfl) Nat.one_pos).trans_le
      (Nat.pow_le_pow_right (by decide) ((Nat.zero_add _).trans_le hlen))

/-- Settles O54: the little-endian number of the bytes is below `2^(8 * length)`, so it is a pattern of that many bits. -/
theorem integersAreLittleEndianTwosComplement : Obligations.IntegersAreLittleEndianTwosComplement := by
  unfold Obligations.IntegersAreLittleEndianTwosComplement
  intro s k d hlen hvalue
  obtain ⟨n, hn⟩ : ∃ n, 8 * intBytes k = n + 1 := ⟨8 * intBytes k - 1, by have := intBytes_pos k; omega⟩
  have hv : leUint d < 2 ^ (n + 1) := hn ▸ hlen ▸ leUint_lt d
  obtain ⟨hmin, hmax, hmod⟩ := sext_range hv
  have hsum := (leUint_eq_digitSum d).trans (digitSum_eq_sum 256 BitVec.toNat d)
  refine ⟨leSint d, handsBack_extract_iff.mpr (extract_int hvalue), ?_⟩
  rw [← hsum, leSint, hlen, hn]
  exact ⟨hmin, hmax, hmod⟩

/-- Settles O56: two decimal digits are a digit of base 100. -/
theorem bcdDigitsGiveTheirNumber : Obligations.BcdDigitsGiveTheirNumber := by
  unfold Obligations.BcdDigitsGiveTheirNumber
  intro s n d heven hlen hvalue
  refine ⟨fun hbad => handsBack_extract_iff.mpr ((extract_bcd hvalue).trans (congrArg some (extractBcd_of_not_decimal hbad))),
    fun hok => ⟨bcdValue d, handsBack_extract_iff.mpr ((extract_bcd hvalue).trans (congrArg some (extractBcd_of_decimal hok))), ?_,
      (bcdValue_eq_digitSum d).trans (digitSum_eq_sum _ _ _)⟩⟩
  have hdigit : ∀ b ∈ d, bits b 7 4 * 10 + bits b 3 0 < 100 := fun b hb => by
    obtain ⟨hhigh, hlow⟩ := hok b hb
    omega
  calc bcdValue d < 100 ^ d.length := bcdValue_eq_digitSum d ▸ digitSum_lt hdigit
    _ = 10 ^ (2 * d.length) := by rw [pow_mul]; rfl
    _ = 10 ^ n := by rw [hlen, Nat.mul_div_cancel' (Nat.dvd_of_mod_eq_zero heven)]

/-- Settles O57: `EXTRACT` of each layout without a number, and of a real that is no sentinel. -/
theorem textEmptyAndRealValues : Obligations.TextEmptyAndRealValues := by
  unfold Obligations.TextEmptyAndRealValues
  refine ⟨fun s lvar text => rfl, fun s => ⟨rfl, rfl⟩, fun s b0 b1 b2 b3 hvalue => ?_, fun s d => rfl⟩
  exact handsBack_extract_iff.mpr ((extract_real32 hvalue).trans (by rw [ofNat_leUint_four]))

/-- Settles O58: each row hands back the entry of the code its encoding holds. -/
theorem theTableRowsReadTheConfiguredRoms : Obligations.TheTableRowsReadTheConfiguredRoms := by
  unfold Obligations.TheTableRowsReadTheConfiguredRoms
  refine fun s => ⟨fun code => rfl, fun i b k h hk => ?_, fun i b k h hk => ?_⟩
  · obtain rfl : k = ⟨(dataCode b).toNat, (dataCode b).isLt⟩ := Fin.ext (hk.trans (toNat_dataCode b).symm)
    exact exec_of_encode_difData h
  · obtain rfl : k = ⟨(valueCode b).toNat, (valueCode b).isLt⟩ := Fin.ext (hk.trans (toNat_valueCode b).symm)
    exact exec_of_encode_vifCode h

/-- Settles O59: each row reads the line of its code in the default tables. -/
theorem theDefaultTables : Obligations.TheDefaultTables := by
  unfold Obligations.TheDefaultTables
  refine ⟨fun s e g f h => ?_, fun s e h => ⟨fun n => ?_, fun n => ?_, fun q hq => ?_, ?_⟩⟩
  · and_intros <;> exact handsBack_dataField_default h rfl rfl
  · and_intros <;> exact handsBack_entry_default h rfl (by revert n; decide)
  · and_intros <;> exact handsBack_entry_default h rfl (by revert n; decide)
  · and_intros <;> exact handsBack_entry_default h rfl (by revert q; decide)
  · and_intros <;> exact handsBack_entry_default h rfl rfl

end
end
